-- ==== Sys2Proof/Word.lean ====
section
/-! DEFINITION. The 32-bit word of the NK order link (12 Word Formats). -/

namespace Sys2Proof

/-- An order word, a data word or a notice word: 32 bits, bit 31 the most significant. -/
abbrev Word := BitVec 32

/-- The argument of a CTRL word, bits 15:0 (R177). -/
abbrev Arg := BitVec 16

end Sys2Proof
end

