-- ==== Sys2Proof/Syntax.lean ====
section
/-! DEFINITION. The commands of the block: one constructor for each row of spec/opcode_table.json, in the
table's order. -/

namespace Sys2Proof

/-- 4.1: the two pens. -/
inductive Pen where
  | a
  | b
  deriving DecidableEq, Repr

/-- The blocks whose order at one frame close the spec leaves open (4.6, R14; log 3). -/
inductive CloseBlock where
  | penEngine (p : Pen)
  | tracker (p : Pen)
  deriving DecidableEq, Repr

/-- The blocks whose order at one frame passage the spec leaves open where they compete for queue room
(4.6, R120, R138; log 4). -/
inductive PassageBlock where
  | regionTest (p : Pen)
  | menuUnit
  deriving DecidableEq, Repr

/-- The commands.
A passage row (`move` to `reservedOrder`) is the passage of the held word when it is of that kind.
`frame`, `retire`, `frameTimerExpiry` and `internalReset` carry the order in which the blocks take the
event; a block that the list leaves out takes it after those that it names (log 3, 4, 5).
A control order row is the arrival of the order's CTRL word, with the argument given, and of its data
words (log 2). -/
inductive Instr where
  | powerOn
  | linkReset
  | wordArrival (w : Word)
  | move
  | line
  | dot
  | step
  | glyph
  | seg
  | frame (order : List PassageBlock)
  | pass
  | reservedOrder
  | crossDot
  | retire (order : List CloseBlock)
  | strike (p : Pen)
  | tipDown (p : Pen)
  | tipUp (p : Pen)
  | noticeAccept
  | penGrant (p : Pen)
  | decoderGrant
  | trackClaimGrant (p : Pen)
  | positionClaimGrant (p : Pen)
  | idleReturnGrant
  | frameTimerExpiry (order : List Pen)
  | internalReset (order : List CloseBlock)
  | segCursor (arg : Arg)
  | segLoad (arg : Arg) (images : List (Word × Word))
  | segLoadNow (arg : Arg) (images : List (Word × Word))
  | segShow (arg : Arg) (run : Word)
  | regionLoad (arg : Arg) (record : Word)
  | pageLoad (arg : Arg) (items : List Word)
  | menuRoot (arg : Arg)
  | menuClose (arg : Arg)
  | menuUnlock (arg : Arg)
  | menuIdle (arg : Arg)
  | forceItem (arg : Arg)
  | penMode (arg : Arg) (record : Word)
  | penFence (arg : Arg) (word1 word2 : Word)
  | penClearExclusions (arg : Arg)
  | trackSet (arg : Arg) (point : Word)
  | trackOff (arg : Arg)
  | blinkRate (arg : Arg)
  | channelPresent (arg : Arg)
  | channelLevel (arg : Arg)
  | routeMode (arg : Arg)
  | keepTables (arg : Arg)
  | resetPart (arg : Arg)
  | frameTimeout (arg : Arg)
  | querySegment (channel : BitVec 2) (params : BitVec 10)
  | queryRegion (channel : BitVec 2) (params : BitVec 10)
  | queryPage (channel : BitVec 2) (params : BitVec 10)
  | queryItem (channel : BitVec 2) (params : BitVec 10)
  | queryStack (channel : BitVec 2) (params : BitVec 10)
  | queryPen (channel : BitVec 2) (params : BitVec 10)
  | queryTrack (channel : BitVec 2) (params : BitVec 10)
  | queryChannels (channel : BitVec 2) (params : BitVec 10)
  | queryFaults (channel : BitVec 2) (params : BitVec 10)
  | queryPart (channel : BitVec 2) (params : BitVec 10)
  deriving DecidableEq, Repr

end Sys2Proof
end

