-- ==== Sys2Proof/Decode.lean ====
section
/-! DEFINITION. The block has no instruction decoder and no row of spec/opcode_table.json gives bits
(fixed and fields are absent from all 58 rows), so no word spells a command (log 20).
The part's own words, the order words and the control orders, are read in Machine/Operands.lean. -/

namespace Sys2Proof

/-- The command that a word spells by the table's bits: none, since no row gives bits. -/
def decodeTableWord (_nbits _w : Nat) : Option Instr := none

end Sys2Proof
end

