-- ==== Sys2Proof/Config.lean ====
section
/-! DEFINITION. The fixed sizes of the NKP-220, and its one free value. The spec leaves no value of the part
open, only the order in which blocks take one event. That order is an operand of the command that meets it
(log 3, 4, 5); an expiry that comes of time passing has no command, and takes it from the free value. -/

namespace Sys2Proof.Config

/-- R12, R13: places of the Flight List. -/
def flightPlaces : Nat := 8

/-- R5: the greatest coordinate on each axis. -/
def maxCoord : Nat := 4095

/-- R9: where the element counter stops. -/
def maxElement : Nat := 4095

/-- R21: the last segment number with an entry. -/
def lastSegment : Nat := 1023

/-- R74: records of one candidate list. -/
def candidateRecords : Nat := 12

/-- R75: where the first-seen counter renumbers. -/
def maxFirstSeen : Nat := 4095

/-- R85: keys of one exclusion list. -/
def exclusionKeys : Nat := 4

/-- R113: the last region number. -/
def lastRegion : Nat := 63

/-- R119: the bound of a winding counter. -/
def maxWinding : Int := 15

/-- R127: pages, and items of one page. -/
def pageCount : Nat := 32
def itemsPerPage : Nat := 12

/-- R129: pages that the Page Stack holds. -/
def stackDepth : Nat := 6

/-- R144: entries of the Notice Queue. -/
def queueEntries : Nat := 32

/-- R145: free entries kept for FAULT notices. -/
def keptForFaults : Nat := 2

/-- R165: report channels, and the part code that QUERY PART returns. -/
def channelCount : Nat := 4
def partCode : Nat := 220

/-- 11.1: milliseconds in one step of the timeout setting. -/
def msPerStep : Nat := 10

/-- The order in which the blocks take the n-th expiry that comes of time passing (R172; log 5, 6). Nothing
constrains it. -/
opaque expiryOrder : Nat → List Pen

end Sys2Proof.Config
end

