-- ==== Sys2Proof/Machine/State.lean ====
section
/-! DEFINITION. The state of the NKP-220, block by block as 3.1 of the scope file lists the blocks, and its
value after power-on. Every rule cited is of spec/. -/

namespace Sys2Proof.Machine

/-- The part never stops: every fault of the spec (R173) is recorded in `Supervisor` and the part goes on.
No event of the spec ends a run, so this type has no constructor. -/
inductive Fault where
  deriving DecidableEq, Repr

/-- Why a command has no meaning. -/
inductive Refusal where
  /-- Raised by `exec` for a row that has no meaning yet (safe: the model stops). No row is left so. -/
  | notModelled (mnemonic : String)
  deriving DecidableEq, Repr

/-- One value for pen A and one for pen B (4.1). -/
structure Pair (α : Type) where
  a : α
  b : α
  deriving DecidableEq, Repr

/-- A table of records by number, in one canonical form: numbers strictly rising, no record equal to the
table's reset value, which an unlisted number reads as (`Table.wf` in Ops; log 16). -/
abbrev Table (α : Type) := List (Nat × α)

/-- 4.2: a position (X, Y), each 0..4095. -/
structure Point where
  x : Nat
  y : Nat
  deriving DecidableEq, Repr

/-! ### Beam Follower (01) -/

/-- R12: an ordinal 0..4095, or "whole segment". -/
inductive Element where
  | ordinal (n : Nat)
  | whole
  deriving DecidableEq, Repr

/-- R12: what a hit is on. -/
structure Key where
  segment : Nat
  element : Element
  deriving DecidableEq, Repr

/-- R12, R95: the arms of a tracking cross. -/
inductive Arm where
  | e
  | w
  | n
  | s
  deriving DecidableEq, Repr

/-- R12: STREAM, or CROSS with the pen, the arm and the dot index 1..4. -/
inductive EntryOrigin where
  | stream
  | cross (p : Pen) (arm : Arm) (index : Nat)
  deriving DecidableEq, Repr

/-- R12: the kinds that an entry records. -/
inductive EntryKind where
  | move
  | line
  | step
  | dot
  | glyph
  | seg
  | frame
  | pass
  deriving DecidableEq, Repr

/-- R12: a Flight List entry. `mask` is the eligibility mask, `struck` the two struck flags. -/
structure Entry where
  origin  : EntryOrigin
  kind    : EntryKind
  key     : Key
  endPt   : Point
  mask    : Pair Bool
  struck  : Pair Bool
  deriving DecidableEq, Repr

/-- 1.2 to 1.4 of The Drawing Stream: the beam state, the Flight List (oldest first) and the afterglow
record. -/
structure BeamFollower where
  position  : Point
  segment   : Nat
  element   : Nat
  flight    : List Entry
  afterglow : Option Entry
  deriving DecidableEq, Repr

/-- R1 to R4: the held word, and the word last sent downstream (log 10). -/
structure LinkInterface where
  held       : Option Word
  downstream : Option Word
  deriving DecidableEq, Repr

/-! ### Segment Table (02) -/

/-- R21: NORMAL, HIGHLIGHT, BLINK, BLANK. -/
inductive Display where
  | normal
  | highlight
  | blink
  | blank
  deriving DecidableEq, Repr

/-- R21: grain SEGMENT or ELEMENT. -/
inductive Grain where
  | segment
  | element
  deriving DecidableEq, Repr

/-- R22: a region 1..63 that a DRAWING segment bounds, with its reverse field. -/
structure Bound where
  region  : Nat
  reverse : Bool
  deriving DecidableEq, Repr

/-- R21, R22: the kind with its optional part. `bound` is none for region 0, which has no reverse field. -/
inductive SegKind where
  | unused
  | drawing (drag : Bool) (bound : Option Bound)
  | menu (page item : Nat)
  deriving DecidableEq, Repr

/-- R21: an image. `route` is a set of channels, bit c for channel c (R180). -/
structure Image where
  kind       : SegKind
  detectable : Bool
  display    : Display
  cls        : Nat
  priority   : Nat
  grain      : Grain
  route      : BitVec 4
  deriving DecidableEq, Repr

/-- R22: UNUSED with the blank values. -/
def Image.blank : Image :=
  { kind := .unused, detectable := false, display := .normal, cls := 0, priority := 0,
    grain := .element, route := 0 }

/-- 2.1: the current image, and the pending image where there is one. -/
structure SegEntry where
  current : Image
  staged  : Option Image
  deriving DecidableEq, Repr

/-- R35: an entry as power-on leaves it. -/
def SegEntry.blank : SegEntry := { current := Image.blank, staged := none }

/-! ### Eligibility and Rewrite (03) -/

/-- R46, R48: blink half-period, phase (`phaseOn`), counter, and the echo segments. -/
structure EligibilityRewrite where
  halfPeriod : Nat
  phaseOn    : Bool
  counter    : Nat
  echo       : Pair (Option Nat)
  deriving DecidableEq, Repr

/-! ### Pen engines (04, 05) -/

/-- R52: OFF, PRESS, CONTINUOUS, REGION. -/
inductive Mode where
  | off
  | press
  | continuous
  | region
  deriving DecidableEq, Repr

/-- R43, R44: the fence record. -/
inductive Fence where
  | none
  | fixed (xmin xmax ymin ymax : Nat)
  | follow (hx hy : Nat)
  deriving DecidableEq, Repr

/-- R52: the pen mode record. `classes` has bit c for class c (R180). -/
structure ModeRecord where
  mode     : Mode
  cycle    : Bool
  mark     : Bool
  echo     : Bool
  dragEnds : Bool
  w        : Nat
  c        : Nat
  span     : Nat
  channel  : Nat
  classes  : BitVec 16
  fence    : Fence
  deriving DecidableEq, Repr

/-- R54: the tip record. -/
inductive Tip where
  | up
  | down
  deriving DecidableEq, Repr

/-- R62, R88: what the held-outcome slot holds. -/
inductive HeldOutcome where
  | winner (key : Key) (strike : Point) (cycled : Bool)
  | region (r : Nat) (point : Point) (saturated : Bool)
  deriving DecidableEq, Repr

/-- 4.3: the attempt states. HOLDING carries the held-outcome slot, which is empty in every other state
(R55, R62). SETTLED carries the settled key (none outside CONTINUOUS mode) and the settled-struck flag
(R58). -/
inductive AttemptState where
  | off
  | ready
  | gathering
  | regionWait
  | regionCount
  | holding (outcome : HeldOutcome)
  | settled (key : Option Key) (struck : Bool)
  deriving DecidableEq, Repr

/-- R64: why an attempt ended MISS. -/
inductive MissReason where
  | span
  | released
  | outside
  | track
  | aborted
  | stalled
  deriving DecidableEq, Repr

/-- R71: the last outcome. -/
inductive LastOutcome where
  | none
  | pick
  | region
  | menu
  | miss (reason : MissReason)
  | discarded
  | reset
  deriving DecidableEq, Repr

/-- R74: the kind of a candidate record. -/
inductive CandidateKind where
  | drawing
  | menu
  deriving DecidableEq, Repr

/-- R74: a candidate record. Bit 0 of `history` is the newest of its 8 bits. -/
structure Candidate where
  key       : Key
  kind      : CandidateKind
  history   : BitVec 8
  struck    : Bool
  firstSeen : Nat
  strike    : Point
  deriving DecidableEq, Repr

/-- 04, 05: a pen engine. -/
structure PenEngine where
  record      : ModeRecord
  tip         : Tip
  attempt     : AttemptState
  candidates  : List Candidate
  exclusions  : List Key
  firstSeen   : Nat
  frameCount  : Nat
  crowded     : Bool
  lastOutcome : LastOutcome
  deriving DecidableEq, Repr

/-! ### Trackers and the cross injector (06) -/

/-- R94: OFF, SEEKING, LOCKED, COASTING. -/
inductive TrackState where
  | off
  | seeking
  | locked
  | coasting
  deriving DecidableEq, Repr

/-- R94: HOST or DRAG. -/
inductive TrackOrigin where
  | host
  | drag
  deriving DecidableEq, Repr

/-- R106: the event of a TRACK notice. -/
inductive TrackEvent where
  | locked
  | lost
  deriving DecidableEq, Repr

/-- R94: a set of dot indices for each arm; bit k - 1 stands for index k. -/
structure Tally where
  e : BitVec 4
  w : BitVec 4
  n : BitVec 4
  s : BitVec 4
  deriving DecidableEq, Repr

/-- R106: the contents of a TRACK request or claim. -/
structure TrackClaim where
  event  : TrackEvent
  point  : Point
  origin : TrackOrigin
  deriving DecidableEq, Repr

/-- R107: the contents of a POSITION request or claim. -/
structure PositionClaim where
  point  : Point
  origin : TrackOrigin
  final  : Bool
  deriving DecidableEq, Repr

/-- R94: the tracker record. -/
structure Tracker where
  state         : TrackState
  position      : Point
  pitch         : Nat
  coastLimit    : Nat
  missCount     : Nat
  settle        : Bool
  origin        : TrackOrigin
  stale         : Bool
  tally         : Tally
  lastReported  : Point
  trackClaim    : Option TrackClaim
  positionClaim : Option PositionClaim
  deriving DecidableEq, Repr

/-- R95: a dot that the cross injector has fixed and that has not yet passed. -/
structure CrossDot where
  pen   : Pen
  arm   : Arm
  index : Nat
  point : Point
  deriving DecidableEq, Repr

/-! ### Region Unit (07) -/

/-- R113: EVEN-ODD or NONZERO. -/
inductive RegionRule where
  | evenOdd
  | nonzero
  deriving DecidableEq, Repr

/-- R113: a record of the Region Table. -/
structure RegionRecord where
  enabled  : Bool
  rule     : RegionRule
  priority : Nat
  route    : BitVec 4
  deriving DecidableEq, Repr

/-- R126: a record as power-on leaves it. -/
def RegionRecord.blank : RegionRecord :=
  { enabled := false, rule := .evenOdd, priority := 0, route := 0 }

/-- R117: the test phase. -/
inductive TestPhase where
  | idle
  | waiting
  | counting
  deriving DecidableEq, Repr

/-- R117: the test record of a pen. An unlisted region has counter 0 and a clear flag. -/
structure RegionTest where
  phase     : TestPhase
  latched   : Point
  counters  : Table Int
  saturated : Table Bool
  deriving DecidableEq, Repr

/-- 07: the Region Table and the pens' tests. -/
structure RegionUnit where
  records : Table RegionRecord
  tests   : Pair RegionTest
  deriving DecidableEq, Repr

/-! ### Menu Unit (08) -/

/-- R127: what COMMAND and TOGGLE do to the stack. -/
inductive AfterAction where
  | stay
  | ascend
  | root
  deriving DecidableEq, Repr

/-- R127: the action with the fields that it carries. -/
inductive Action where
  | descend (target : Nat)
  | ascend
  | command (code : Nat) (after : AfterAction)
  | toggle (after : AfterAction)
  deriving DecidableEq, Repr

/-- R127: an item record. -/
structure Item where
  action  : Action
  toggle  : Bool
  channel : Nat
  deriving DecidableEq, Repr

/-- R127: a page record. The item count is the number of items. -/
structure PageRecord where
  valid : Bool
  items : List Item
  deriving DecidableEq, Repr

/-- R143: a page record as power-on leaves it. -/
def PageRecord.blank : PageRecord := { valid := false, items := [] }

/-- R139: the contents of an IDLE RETURN request or claim. -/
structure IdleClaim where
  owner       : Pen
  root        : Nat
  topBefore   : Nat
  depthBefore : Nat
  deriving DecidableEq, Repr

/-- 08: Page Table, Page Stack (root first), menu lock, idle counter and limit, IDLE RETURN claim. -/
structure MenuUnit where
  pages       : Table PageRecord
  stack       : List Nat
  owner       : Option Pen
  idleCounter : Nat
  idleLimit   : Nat
  claim       : Option IdleClaim
  deriving DecidableEq, Repr

/-! ### Notice Unit (09) -/

/-- R173: the kinds of fault. -/
inductive FaultKind where
  | badOrder
  | badControl
  | badValue
  | badIndex
  | spuriousRetire
  | stall
  deriving DecidableEq, Repr

/-- R135: the result of a menu pick. -/
inductive MenuResult where
  | descended
  | ascended
  | noChange
  | command
  | toggled
  | refusedLocked
  | refusedStale
  | refusedFull
  | refusedLoop
  | refusedEmpty
  deriving DecidableEq, Repr

/-- R71: the contents of the reply to QUERY PEN. -/
structure PenStatus where
  mode        : Mode
  cycle       : Bool
  mark        : Bool
  echo        : Bool
  dragEnds    : Bool
  attempt     : AttemptState
  tip         : Tip
  frameCount  : Nat
  candidates  : Nat
  crowded     : Bool
  lastOutcome : LastOutcome
  exclusions  : List Key
  deriving DecidableEq, Repr

/-- R125: a pen's part of the reply to QUERY REGION. -/
structure RegionCount where
  phase     : TestPhase
  counter   : Int
  saturated : Bool
  deriving DecidableEq, Repr

/-- R111: the contents of the reply to QUERY TRACK. The POSITION claim is given by its FINAL flag. -/
structure TrackStatus where
  state         : TrackState
  position      : Point
  pitch         : Nat
  coastLimit    : Nat
  missCount     : Nat
  settle        : Bool
  stale         : Bool
  origin        : TrackOrigin
  lastReported  : Point
  trackClaim    : Option TrackEvent
  positionClaim : Option Bool
  deriving DecidableEq, Repr

/-- R156: which claims wait. -/
structure ClaimsWaiting where
  decoder      : Bool
  pens         : Pair Bool
  tracks       : Pair Bool
  positions    : Pair Bool
  idleReturn   : Bool
  deriving DecidableEq, Repr

/-- R156: the contents of the reply to QUERY CHANNELS. -/
structure ChannelStatus where
  present      : BitVec 4
  levels       : List Nat
  lru          : List Nat
  tieFirst     : Bool
  all          : Bool
  notices      : Nat
  faults       : Nat
  claims       : ClaimsWaiting
  lastPen      : Pen
  deriving DecidableEq, Repr

/-- R164: the contents of a REPLY, one constructor for each query subject. -/
inductive Reply where
  | segment (n : Nat) (image : Image) (pending : Option Display)
  | region (r : Nat) (record : RegionRecord) (counts : Pair RegionCount)
  | page (n : Nat) (valid : Bool) (items : List Item)
  | item (page k : Nat) (item : Option Item)
  | stack (pages : List Nat) (owner : Option Pen) (counter limit : Nat) (claim : Bool)
  | pen (p : Pen) (status : PenStatus)
  | track (p : Pen) (status : TrackStatus)
  | channels (status : ChannelStatus)
  | faults (setting : Nat) (first : Option (FaultKind × Word)) (stalled lost : Bool) (sticky : BitVec 6)
  | part (cursor : Nat) (endFlag keep : Bool)
  deriving DecidableEq, Repr

/-- R144: the kind of a notice with its payload and the flags of its kind, but for REROUTED. -/
inductive NoticeBody where
  | pick (key : Key) (cls : Nat) (strike : Point) (cycled marked drag : Bool)
  | region (r : Nat) (point : Point) (saturated : Bool)
  | menu (page item : Nat) (result : MenuResult) (value depth top : Nat) (cycled marked forced : Bool)
  | miss (reason : MissReason) (frames candidates : Nat) (crowded : Bool)
  | position (claim : PositionClaim)
  | track (claim : TrackClaim)
  | idleReturn (root topBefore depthBefore : Nat)
  | fault (kind : FaultKind) (context : Word) (first lost : Bool) (sticky : BitVec 6)
  | reply (contents : Reply)
  deriving DecidableEq, Repr

/-- R144: a notice in the queue. -/
structure Notice where
  body     : NoticeBody
  channel  : Nat
  pen      : Option Pen
  rerouted : Bool
  accepted : Nat
  deriving DecidableEq, Repr

/-- 09: Notice Queue (oldest first), Channel Table, LRU order (least recent first), route options, last pen
granted. -/
structure NoticeUnit where
  queue    : List Notice
  present  : BitVec 4
  levels   : Table Nat
  lru      : List Nat
  tieFirst : Bool
  all      : Bool
  lastPen  : Pen
  deriving DecidableEq, Repr

/-! ### Control Decoder (10) -/

/-- 10.1: the Decoder state, with the order being collected (its CTRL word and the data words received so
far) or held. -/
inductive DecoderState where
  | idle
  | collecting (ctrl : Word) (got : List Word)
  | held (ctrl : Word)
  | drain
  deriving DecidableEq, Repr

/-- 10.1: Decoder state, segment load cursor with its end flag, keep-tables flag. -/
structure ControlDecoder where
  state   : DecoderState
  cursor  : Nat
  endFlag : Bool
  keep    : Bool
  deriving DecidableEq, Repr

/-! ### Supervisor (11) -/

/-- 11.1: the frame timer. RUNNING carries the time remaining in milliseconds. -/
inductive TimerState where
  | off
  | running (remaining : Nat)
  | stalled
  deriving DecidableEq, Repr

/-- 11: timeout setting, timer, and the fault record (R174). Bit k of `sticky` stands for the fault kind
of code k (R180, R181). -/
structure Supervisor where
  setting : Nat
  timer   : TimerState
  sticky  : BitVec 6
  first   : Option (FaultKind × Word)
  lost    : Bool
  deriving DecidableEq, Repr

/-! ### The part -/

/-- The whole part; the queue of the commands that wait; and `draws`, the model's own count of the orders
drawn from the free value `Config.expiryOrder` (log 6). -/
structure State where
  link       : LinkInterface
  beam       : BeamFollower
  segments   : Table SegEntry
  rewrite    : EligibilityRewrite
  pens       : Pair PenEngine
  trackers   : Pair Tracker
  injection  : List CrossDot
  regions    : RegionUnit
  menu       : MenuUnit
  notices    : NoticeUnit
  decoder    : ControlDecoder
  supervisor : Supervisor
  pending    : List Instr
  draws      : Nat
  deriving DecidableEq, Repr

/-! ### Reset values -/

/-- R19: the Beam Follower after each reset. -/
def BeamFollower.reset : BeamFollower :=
  { position := ⟨0, 0⟩, segment := 0, element := 0, flight := [], afterglow := none }

/-- R51. -/
def EligibilityRewrite.reset : EligibilityRewrite :=
  { halfPeriod := 4, phaseOn := true, counter := 0, echo := ⟨none, none⟩ }

/-- R52: the reset values of the pen mode record. -/
def ModeRecord.reset : ModeRecord :=
  { mode := .off, cycle := false, mark := false, echo := false, dragEnds := false, w := 3, c := 2,
    span := 20, channel := 0, classes := 0xFFFF#16, fence := .none }

/-- R73: a pen engine after power-on. -/
def PenEngine.reset : PenEngine :=
  { record := ModeRecord.reset, tip := .up, attempt := .off, candidates := [], exclusions := [],
    firstSeen := 0, frameCount := 0, crowded := false, lastOutcome := .none }

/-- R94: the empty tally. -/
def Tally.empty : Tally := { e := 0, w := 0, n := 0, s := 0 }

/-- R112. -/
def Tracker.reset : Tracker :=
  { state := .off, position := ⟨2048, 2048⟩, pitch := 8, coastLimit := 4, missCount := 0,
    settle := false, origin := .host, stale := false, tally := Tally.empty,
    lastReported := ⟨2048, 2048⟩, trackClaim := none, positionClaim := none }

/-- R126. -/
def RegionTest.reset : RegionTest :=
  { phase := .idle, latched := ⟨0, 0⟩, counters := [], saturated := [] }

/-- R143. -/
def MenuUnit.reset : MenuUnit :=
  { pages := [], stack := [], owner := none, idleCounter := 0, idleLimit := 0, claim := none }

/-- R157. -/
def NoticeUnit.reset : NoticeUnit :=
  { queue := [], present := 1#4, levels := [], lru := [0, 1, 2, 3], tieFirst := false, all := false,
    lastPen := .b }

/-- R168. -/
def ControlDecoder.reset : ControlDecoder :=
  { state := .idle, cursor := 1, endFlag := false, keep := false }

/-- R176. -/
def Supervisor.reset : Supervisor :=
  { setting := 0, timer := .off, sticky := 0, first := none, lost := false }

/-- The part right after power-on (R19, R35, R51, R73, R112, R126, R143, R157, R168, R176). The word last
sent downstream is none (log 10). `draws` is the model's own
(log 6). -/
def State.reset : State :=
  { link := { held := none, downstream := none }
    beam := BeamFollower.reset
    segments := []
    rewrite := EligibilityRewrite.reset
    pens := ⟨PenEngine.reset, PenEngine.reset⟩
    trackers := ⟨Tracker.reset, Tracker.reset⟩
    injection := []
    regions := { records := [], tests := ⟨RegionTest.reset, RegionTest.reset⟩ }
    menu := MenuUnit.reset
    notices := NoticeUnit.reset
    decoder := ControlDecoder.reset
    supervisor := Supervisor.reset
    pending := []
    draws := 0 }

end Sys2Proof.Machine
end

