-- ==== Sys2Proof/Machine/Operands.lean ====
section
/-! DEFINITION. Reading the part's words: order words (R177, R178), the argument and data words of the control
orders, segment images, item words and code values (R179, R180). -/

namespace Sys2Proof.Machine

/-- The field of `len` bits whose lowest bit is bit `lo`, unsigned (12). -/
def field {n : Nat} (w : BitVec n) (lo len : Nat) : Nat := (w.extractLsb' lo len).toNat

/-- The same field in two's complement (R178). -/
def signedField {n : Nat} (w : BitVec n) (lo len : Nat) : Int := (w.extractLsb' lo len).toInt

/-! ### Order words (R177) -/

/-- The kinds of an order word; codes 9h to Fh are reserved. -/
inductive WordKind where
  | move
  | line
  | step
  | dot
  | glyph
  | seg
  | frame
  | pass
  | ctrl
  | reserved
  deriving DecidableEq, Repr

/-- R177: the kind code in bits 31:28. -/
def wordKind (w : Word) : WordKind :=
  match field w 28 4 with
  | 0 => .move
  | 1 => .line
  | 2 => .step
  | 3 => .dot
  | 4 => .glyph
  | 5 => .seg
  | 6 => .frame
  | 7 => .pass
  | 8 => .ctrl
  | _ => .reserved

/-- R177: X in 23:12 and Y in 11:0 of a MOVE, LINE or DOT. -/
def orderPoint (w : Word) : Point := ⟨field w 12 12, field w 0 12⟩

/-- R177: the intensity field, 26:24. -/
def orderIntensity (w : Word) : Nat := field w 24 3

/-- R178: the decided intensity is written into 26:24 and into no other bits. -/
def withIntensity (w : Word) (i : Nat) : Word :=
  (w &&& ~~~(0x07000000#32)) ||| (BitVec.ofNat 32 (i % 8) <<< 24)

/-- R177: bit 27 of a STEP is 1 for beam on. -/
def stepBeamOn (w : Word) : Bool := w.getLsbD 27

/-- R177, R178: dX in 21:11 and dY in 10:0 of a STEP, signed. -/
def stepDx (w : Word) : Int := signedField w 11 11
def stepDy (w : Word) : Int := signedField w 0 11

/-- R8: the pitch of a GLYPH from its size, 9:8. -/
def glyphPitch (w : Word) : Nat :=
  match field w 8 2 with
  | 0 => 12
  | 1 => 18
  | 2 => 24
  | _ => 36

/-- R177: the segment of a SEG, 9:0. -/
def segField (w : Word) : Nat := field w 0 10

/-- R177: the DOT word of a cross dot: intensity 7, the point, reserved bits 0. -/
def crossDotWord (p : Point) : Word :=
  BitVec.ofNat 32 (3 * 2 ^ 28 + 7 * 2 ^ 24 + p.x % 4096 * 2 ^ 12 + p.y % 4096)

/-! ### CTRL words (R177) -/

def ctrlCode (w : Word) : Nat := field w 20 8
def ctrlCount (w : Word) : Nat := field w 16 4
def ctrlArg (w : Word) : Arg := w.extractLsb' 0 16

/-- The CTRL word with the code, the data count and the argument given (R177, R179). -/
def ctrlWord (code count : Nat) (arg : Arg) : Word :=
  8#4 ++ BitVec.ofNat 8 code ++ BitVec.ofNat 4 count ++ arg

/-- The argument of a QUERY: subject, reply channel, parameters (R179). -/
def queryArg (subject : Nat) (channel : BitVec 2) (params : BitVec 10) : Arg :=
  BitVec.ofNat 4 subject ++ channel ++ params

/-! ### Code values (R179) -/

/-- Pen: 0 A, 1 B. -/
def penOfBit (b : Bool) : Pen := if b then .b else .a

/-- R179: the pen of an argument, bit 15. -/
def argPen (arg : Arg) : Pen := penOfBit (arg.getLsbD 15)

def displayOfCode : Nat → Display
  | 0 => .normal
  | 1 => .highlight
  | 2 => .blink
  | _ => .blank

def modeOfCode : Nat → Mode
  | 0 => .off
  | 1 => .press
  | 2 => .continuous
  | _ => .region

/-! ### Segment images (R179, R27) -/

/-- R179: the region and reverse fields of word 2 of a DRAWING image; reverse is not stored with region 0
(R22, R27). -/
def boundOfWord (w2 : Word) : Option Bound :=
  if field w2 0 6 = 0 then none else some { region := field w2 0 6, reverse := w2.getLsbD 6 }

/-- R179: the fields of word 1 that a DRAWING or MENU image carries, with the kind given. -/
def imageOfKind (kind : SegKind) (w1 : Word) : Image :=
  { kind := kind
    detectable := w1.getLsbD 29
    display := displayOfCode (field w1 27 2)
    cls := field w1 23 4
    priority := field w1 20 3
    grain := if w1.getLsbD 19 then .element else .segment
    route := w1.extractLsb' 0 4 }

/-- R179, R27: an image of a load; none when it is out of range. -/
def decodeImage (w1 w2 : Word) : Option Image :=
  match field w1 30 2 with
  | 0 => some Image.blank
  | 1 => some (imageOfKind (.drawing (w2.getLsbD 7) (boundOfWord w2)) w1)
  | 2 =>
    if field w2 0 4 < Config.itemsPerPage then
      some (imageOfKind (.menu (field w2 4 5) (field w2 0 4)) w1)
    else none
  | _ => none

/-- R27: the images of a load; none when any of them is out of range. -/
def decodeImages : List (Word × Word) → Option (List Image)
  | [] => some []
  | (w1, w2) :: rest =>
    match decodeImage w1 w2, decodeImages rest with
    | some img, some imgs => some (img :: imgs)
    | _, _ => none

/-- R159: the data words of a load, two for each image; none for an odd number. -/
def pairUp : List Word → Option (List (Word × Word))
  | [] => some []
  | [_] => none
  | w1 :: w2 :: rest => (pairUp rest).map ((w1, w2) :: ·)

/-! ### Item words (R179, R128) -/

/-- R179: after-action code; 3 is reserved. -/
def afterOfCode : Nat → Option AfterAction
  | 0 => some .stay
  | 1 => some .ascend
  | 2 => some .root
  | _ => none

/-- R179, R128: the action of an item word with the fields that it carries; none for a reserved code. -/
def decodeAction (w : Word) : Option Action :=
  match field w 29 3 with
  | 0 => some (.descend (field w 0 5))
  | 1 => some .ascend
  | 2 => (afterOfCode (field w 27 2)).map (.command (field w 0 8))
  | 3 => (afterOfCode (field w 27 2)).map .toggle
  | _ => none

/-- R179: an item word; none when it holds a reserved code that its action carries (R128). -/
def decodeItem (w : Word) : Option Item :=
  (decodeAction w).map fun action =>
    { action := action, toggle := w.getLsbD 26, channel := field w 24 2 }

/-- R128: the item words of a PAGE LOAD; none when any of them holds a reserved code. -/
def decodeItems : List Word → Option (List Item)
  | [] => some []
  | w :: rest =>
    match decodeItem w, decodeItems rest with
    | some item, some items => some (item :: items)
    | _, _ => none

/-! ### Records of the other orders (R179) -/

/-- REGION LOAD: 9 enabled; 8 rule; 7:4 priority; 3:0 route. -/
def decodeRegion (w : Word) : RegionRecord :=
  { enabled := w.getLsbD 9
    rule := if w.getLsbD 8 then .nonzero else .evenOdd
    priority := field w 4 4
    route := w.extractLsb' 0 4 }

/-- PEN MODE: the argument and the data word, with the fence that the record keeps (R53). -/
def decodeMode (fence : Fence) (arg : Arg) (w : Word) : ModeRecord :=
  { mode := modeOfCode (field arg 12 2)
    cycle := arg.getLsbD 11
    mark := arg.getLsbD 10
    echo := arg.getLsbD 9
    dragEnds := arg.getLsbD 8
    w := field w 12 4
    c := field w 8 4
    span := field w 0 6
    channel := field arg 0 2
    classes := w.extractLsb' 16 16
    fence := fence }

/-- R53: PEN MODE is refused when W is 0 or 9..15, C is 0 or greater than W, or span is 0. -/
def modeInRange (r : ModeRecord) : Bool :=
  decide (1 ≤ r.w) && decide (r.w ≤ 8) && decide (1 ≤ r.c) && decide (r.c ≤ r.w) && decide (1 ≤ r.span)

/-- R45, R179: the fence of a PEN FENCE; none when it is refused. -/
def decodeFence (arg : Arg) (w1 w2 : Word) : Option Fence :=
  match field arg 0 2 with
  | 0 => some .none
  | 1 =>
    if field w1 16 12 ≤ field w1 0 12 ∧ field w2 16 12 ≤ field w2 0 12 then
      some (.fixed (field w1 16 12) (field w1 0 12) (field w2 16 12) (field w2 0 12))
    else none
  | 2 =>
    if field w1 16 10 ≠ 0 ∧ field w1 0 10 ≠ 0 then
      some (.follow (field w1 16 10) (field w1 0 10))
    else none
  | _ => none

/-- R179: a data word that holds a point, X in 27:16 and Y in 11:0. -/
def dataPoint (w : Word) : Point := ⟨field w 16 12, field w 0 12⟩

end Sys2Proof.Machine
end

