-- ==== Sys2Proof/Machine/Flags.lean ====
section
/-! DEFINITION. The conditions that the blocks read: upstream ready, room in the Flight List and in the
Notice Queue, the claims that wait, the stall condition. -/

namespace Sys2Proof.Machine

/-! ### Pairs (4.1) -/

def Pair.get {α : Type} (x : Pair α) : Pen → α
  | .a => x.a
  | .b => x.b

def Pair.set {α : Type} (x : Pair α) (p : Pen) (v : α) : Pair α :=
  match p with
  | .a => { x with a := v }
  | .b => { x with b := v }

/-- 4.1: the other pen. -/
def otherPen : Pen → Pen
  | .a => .b
  | .b => .a

/-! ### Bit masks (R180) -/

/-- The number of 1 bits among the `n` lowest bits. -/
def onesIn {k : Nat} (x : BitVec k) : Nat → Nat
  | 0 => 0
  | n + 1 => onesIn x n + (if x.getLsbD n then 1 else 0)

/-- R180: the set of one channel. -/
def onlyChannel (c : Nat) : BitVec 4 := 1#4 <<< c

/-- R181: the code of a fault kind, which is its place in the sticky set (R180). -/
def faultCode : FaultKind → Nat
  | .badOrder => 0
  | .badControl => 1
  | .badValue => 2
  | .badIndex => 3
  | .spuriousRetire => 4
  | .stall => 5

/-! ### The upstream input (R1) -/

/-- The Control Decoder is holding a control order that waits for notice room. -/
def DecoderState.isHeld : DecoderState → Bool
  | .held _ => true
  | _ => false

/-- R1: no held word, no held control order, no drain. -/
def State.upstreamReady (s : State) : Bool :=
  s.link.held.isNone && !s.decoder.state.isHeld && decide (s.decoder.state ≠ .drain)

/-- R3: the Flight List holds fewer than 8 entries. -/
def State.flightHasRoom (s : State) : Bool :=
  decide (s.beam.flight.length < Config.flightPlaces)

/-! ### The Notice Queue (R145, R149) -/

/-- R145: entries that are free. -/
def State.freeEntries (s : State) : Nat := Config.queueEntries - s.notices.queue.length

/-- R145: more than 2 entries are free. -/
def State.entryFree (s : State) : Bool := decide (Config.keptForFaults < s.freeEntries)

/-- R149: pen p's claim waits while it is HOLDING. -/
def AttemptState.isHolding : AttemptState → Bool
  | .holding _ => true
  | _ => false

/-- R149: which claims wait. -/
def State.claims (s : State) : ClaimsWaiting :=
  { decoder := s.decoder.state.isHeld
    pens := ⟨s.pens.a.attempt.isHolding, s.pens.b.attempt.isHolding⟩
    tracks := ⟨s.trackers.a.trackClaim.isSome, s.trackers.b.trackClaim.isSome⟩
    positions := ⟨s.trackers.a.positionClaim.isSome, s.trackers.b.positionClaim.isSome⟩
    idleReturn := s.menu.claim.isSome }

/-- Some claim of some block waits. -/
def ClaimsWaiting.any (c : ClaimsWaiting) : Bool :=
  c.decoder || c.pens.a || c.pens.b || c.tracks.a || c.tracks.b || c.positions.a || c.positions.b
    || c.idleReturn

/-- R145: a notice that is not a FAULT notice, offered, requested or claimed, finds room: more than 2
entries are free and no claim of any block waits. -/
def State.hasRoom (s : State) : Bool := s.entryFree && !s.claims.any

/-- R145: a FAULT notice finds room. -/
def State.faultRoom (s : State) : Bool := decide (0 < s.freeEntries)

/-- R148, R150: a POSITION notice of pen p. -/
def Notice.isPositionOf (p : Pen) (n : Notice) : Bool :=
  match n.body with
  | .position _ => n.pen == some p
  | _ => false

/-- R144: a FAULT notice. -/
def Notice.isFault (n : Notice) : Bool :=
  match n.body with
  | .fault _ _ _ _ _ => true
  | _ => false

/-- R150: a POSITION notice of pen p stands in the queue. -/
def State.positionQueued (s : State) (p : Pen) : Bool :=
  s.notices.queue.any (Notice.isPositionOf p)

/-! ### The Supervisor -/

/-- 11.1: the stall condition. -/
def Supervisor.stalled (v : Supervisor) : Bool := decide (v.timer = .stalled)

/-- R169: the timer that a setting starts. -/
def timerOfSetting (setting : Nat) : TimerState :=
  if setting = 0 then .off else .running (setting * Config.msPerStep)

end Sys2Proof.Machine
end

