-- ==== Sys2Proof/Machine/Ops.lean ====
section
/-! DEFINITION. The named operations that the blocks share: tables by number, one pen's half of a pair,
positions, segment images, the choice of a report channel and the entry of a notice, the raising of a fault. -/

namespace Sys2Proof.Machine

/-! ### Tables by number (log 16) -/

/-- The record of number `k`; an unlisted number reads as the reset value `d`. -/
def Table.read {α : Type} (d : α) : Table α → Nat → α
  | [], _ => d
  | (j, u) :: t, k => if j = k then u else Table.read d t k

/-- The list with `(k, v)` in its place. -/
def Table.place {α : Type} (k : Nat) (v : α) : Table α → Table α
  | [] => [(k, v)]
  | (j, u) :: t =>
    if k < j then (k, v) :: (j, u) :: t
    else if k = j then (k, v) :: t
    else (j, u) :: Table.place k v t

/-- The list without number `k`. -/
def Table.drop {α : Type} (k : Nat) (t : Table α) : Table α := t.filter fun e => decide (e.1 ≠ k)

/-- Writes `v` as the record of number `k`, keeping the canonical form. -/
def Table.write {α : Type} [DecidableEq α] (d : α) (t : Table α) (k : Nat) (v : α) : Table α :=
  if v = d then Table.drop k t else Table.place k v t

/-- Every record through `f`, keeping the canonical form. For an `f` with `f d = d`. -/
def Table.mapAll {α : Type} [DecidableEq α] (d : α) (f : α → α) (t : Table α) : Table α :=
  (t.map fun e => (e.1, f e.2)).filter fun e => decide (e.2 ≠ d)

/-- The canonical form: numbers strictly rising, no record equal to the reset value. -/
def Table.wf {α : Type} [DecidableEq α] (d : α) : Table α → Bool
  | [] => true
  | (j, u) :: t => decide (u ≠ d) && t.all (fun e => decide (j < e.1)) && Table.wf d t

/-! ### Orders of blocks (log 3, 4, 5) -/

/-- The first occurrence of each name. -/
def firstOccurrences {α : Type} [DecidableEq α] : List α → List α
  | [] => []
  | x :: xs => x :: (firstOccurrences xs).filter fun y => decide (y ≠ x)

/-- The order that a RETIRE gives at a frame close, completed to all four blocks. -/
def closeOrder (order : List CloseBlock) : List CloseBlock :=
  firstOccurrences (order ++ [.penEngine .a, .penEngine .b, .tracker .a, .tracker .b])

/-- The order that a FRAME gives at its passage, completed to all three blocks. -/
def passageOrder (order : List PassageBlock) : List PassageBlock :=
  firstOccurrences (order ++ [.regionTest .a, .regionTest .b, .menuUnit])

/-- The order that an expiry gives: each name of a pen stands for the first of its two blocks that has not
taken the expiry yet, the pen engine before the tracker (R171). `a` and `b` count the blocks already named. -/
def expiryBlocks : List Pen → Nat → Nat → List CloseBlock
  | [], _, _ => []
  | .a :: rest, 0, b => .penEngine .a :: expiryBlocks rest 1 b
  | .a :: rest, 1, b => .tracker .a :: expiryBlocks rest 2 b
  | .a :: rest, n, b => expiryBlocks rest n b
  | .b :: rest, a, 0 => .penEngine .b :: expiryBlocks rest a 1
  | .b :: rest, a, 1 => .tracker .b :: expiryBlocks rest a 2
  | .b :: rest, a, n => expiryBlocks rest a n

/-- The order of an expiry, completed to all four blocks. -/
def expiryOrder (order : List Pen) : List CloseBlock :=
  expiryBlocks (order ++ [.a, .a, .b, .b]) 0 0

/-! ### One pen's state -/

def State.pen (s : State) (p : Pen) : PenEngine := s.pens.get p
def State.setPen (s : State) (p : Pen) (v : PenEngine) : State := { s with pens := s.pens.set p v }

def State.tracker (s : State) (p : Pen) : Tracker := s.trackers.get p
def State.setTracker (s : State) (p : Pen) (v : Tracker) : State :=
  { s with trackers := s.trackers.set p v }

def State.regionTest (s : State) (p : Pen) : RegionTest := s.regions.tests.get p
def State.setRegionTest (s : State) (p : Pen) (v : RegionTest) : State :=
  { s with regions := { s.regions with tests := s.regions.tests.set p v } }

/-- R48, R49: the echo segment of pen p. -/
def State.setEcho (s : State) (p : Pen) (v : Option Nat) : State :=
  { s with rewrite := { s.rewrite with echo := s.rewrite.echo.set p v } }

/-- R94: the tracker is active while it is SEEKING, LOCKED or COASTING. -/
def Tracker.active (t : Tracker) : Bool := decide (t.state ≠ .off)

/-! ### Positions (4.2, R5) -/

/-- A computed coordinate, clamped to 0..4095. -/
def clampCoord (v : Int) : Nat := min v.toNat Config.maxCoord

/-- A point displaced by (dx, dy), each axis clamped (R5). -/
def Point.displaced (p : Point) (dx dy : Int) : Point :=
  ⟨clampCoord (p.x + dx), clampCoord (p.y + dy)⟩

/-- Each coordinate is within 0..4095. -/
def Point.onScreen (p : Point) : Bool :=
  decide (p.x ≤ Config.maxCoord) && decide (p.y ≤ Config.maxCoord)

/-! ### The Segment Table (R23, R29) -/

/-- 2.1: entry n. Segment 0 has no entry and reads as one that is UNUSED. -/
def State.segEntry (s : State) (n : Nat) : SegEntry :=
  if n = 0 then SegEntry.blank else Table.read SegEntry.blank s.segments n

/-- R23: every reader reads the current image. -/
def State.image (s : State) (n : Nat) : Image := (s.segEntry n).current

def State.setSegEntry (s : State) (n : Nat) (e : SegEntry) : State :=
  { s with segments := Table.write SegEntry.blank s.segments n e }

/-- R28, R29: the display value into the current image, and into the pending image where there is one. -/
def SegEntry.withDisplay (d : Display) (e : SegEntry) : SegEntry :=
  { current := { e.current with display := d }
    staged := e.staged.map fun img => { img with display := d } }

/-- R29: a mark of segment n. -/
def State.markSegment (s : State) (n : Nat) : State :=
  s.setSegEntry n ((s.segEntry n).withDisplay .highlight)

/-! ### Routing (R153, R154) -/

/-- R154: channel 0 is always present. -/
def NoticeUnit.isPresent (u : NoticeUnit) (c : Nat) : Bool := c == 0 || u.present.getLsbD c

/-- R154 step 3, 4: among `best` and the channels that follow it, the first of the lowest level. -/
def lowestLevel (levels : Table Nat) : Nat → List Nat → Nat
  | best, [] => best
  | best, c :: cs =>
    if Table.read 0 levels c < Table.read 0 levels best then lowestLevel levels c cs
    else lowestLevel levels best cs

/-- R154: the channel chosen from a route, and whether the notice is REROUTED. The present channels of the
route are listed in the order that breaks a tie: the LRU order, or the numbers under FIRST. -/
def chooseChannel (u : NoticeUnit) (route : BitVec 4) : Nat × Bool :=
  let kept := (if u.tieFirst then [0, 1, 2, 3] else u.lru).filter fun c =>
    route.getLsbD c && u.isPresent c
  match kept with
  | [] => (0, true)
  | c :: cs => (if u.all then c else lowestLevel u.levels c cs, false)

/-- R154 step 5: the chosen channel moves to the most-recent end. -/
def mostRecent (lru : List Nat) (c : Nat) : List Nat := lru.filter (fun d => decide (d ≠ c)) ++ [c]

/-- R145, R153, R154: a notice enters the queue at its tail, routed as it enters. -/
def NoticeUnit.enter (u : NoticeUnit) (route : BitVec 4) (pen : Option Pen) (body : NoticeBody) :
    NoticeUnit :=
  { u with
    queue := u.queue ++ [{ body := body, channel := (chooseChannel u route).1, pen := pen,
                           rerouted := (chooseChannel u route).2, accepted := 0 }]
    lru := mostRecent u.lru (chooseChannel u route).1 }

def State.enterNotice (s : State) (route : BitVec 4) (pen : Option Pen) (body : NoticeBody) : State :=
  { s with notices := s.notices.enter route pen body }

/-- R153: pen p's default channel alone, read from the mode record as the notice enters. -/
def State.defaultRoute (s : State) (p : Pen) : BitVec 4 := onlyChannel (s.pen p).record.channel

/-- R153: an empty route is replaced by pen p's default channel alone. -/
def State.routeOr (s : State) (route : BitVec 4) (p : Pen) : BitVec 4 :=
  if route = 0 then s.defaultRoute p else route

/-- R65, R145: a MISS notice is offered, and is not kept without room. -/
def State.offerNotice (s : State) (route : BitVec 4) (pen : Option Pen) (body : NoticeBody) : State :=
  if s.hasRoom then s.enterNotice route pen body else s

/-! ### Faults (R173, R174) -/

/-- R174 step 1: the sticky set with a kind added. -/
def stickyWith (sticky : BitVec 6) (kind : FaultKind) : BitVec 6 := sticky ||| 1#6 <<< faultCode kind

/-- R174 step 2: the first fault after a fault is raised. -/
def firstWith (first : Option (FaultKind × Word)) (kind : FaultKind) (context : Word) :
    Option (FaultKind × Word) :=
  match first with
  | none => some (kind, context)
  | some f => some f

/-- R174: a fault is recorded, and a FAULT notice is offered; without a free entry NOTICE-LOST is set. -/
def State.raiseFault (s : State) (kind : FaultKind) (context : Word) : State :=
  let v := { s.supervisor with
             sticky := stickyWith s.supervisor.sticky kind
             first := firstWith s.supervisor.first kind context }
  if s.faultRoom then
    { s with
      supervisor := v
      notices := s.notices.enter (onlyChannel 0) none
        (.fault kind context s.supervisor.first.isNone v.lost v.sticky) }
  else { s with supervisor := { v with lost := true } }

end Sys2Proof.Machine
end

