-- ==== Sys2Proof/Machine/Menu.lean ====
section
/-! DEFINITION. The Menu Unit (08): pages and items, the Page Stack, the menu lock, menu picks, idle return. -/

namespace Sys2Proof.Machine

/-- R127: page record n. -/
def MenuUnit.page (u : MenuUnit) (n : Nat) : PageRecord := Table.read PageRecord.blank u.pages n

/-- R41, R127: item k of page n, when it exists: the page is valid and k is below its item count. -/
def MenuUnit.item (u : MenuUnit) (n k : Nat) : Option Item :=
  if (u.page n).valid then (u.page n).items[k]? else none

/-- R129: the top of the Page Stack. -/
def MenuUnit.top (u : MenuUnit) : Option Nat := u.stack.getLast?

/-- R41: where a button is shown. -/
inductive Shown where
  | onTop
  | belowTop
  | hidden
  deriving DecidableEq, Repr

/-- R41: where the button of item k of page n is shown. -/
def MenuUnit.shown (u : MenuUnit) (n k : Nat) : Shown :=
  if (u.item n k).isNone then .hidden
  else if u.top = some n then .onTop
  else if u.stack.contains n then .belowTop
  else .hidden

/-- R129: a pop removes the top page when the depth is 2 or more. -/
def popPage (stack : List Nat) : List Nat := if 2 ≤ stack.length then stack.dropLast else stack

/-- R134: the after-action. -/
def afterStack (after : AfterAction) (stack : List Nat) : List Nat :=
  match after with
  | .stay => stack
  | .ascend => popPage stack
  | .root => stack.take 1

/-- R134: the toggle state of item k of page n is set. -/
def MenuUnit.withToggle (u : MenuUnit) (n k : Nat) (item : Item) (on : Bool) : MenuUnit :=
  let record := u.page n
  let changed := { record with items := record.items.set k { item with toggle := on } }
  { u with pages := Table.write PageRecord.blank u.pages n changed }

/-- R133: DESCEND to page t. The conditions are tested in the order of the table. -/
def MenuUnit.descend (u : MenuUnit) (t : Nat) : MenuUnit × MenuResult :=
  if Config.stackDepth ≤ u.stack.length then (u, .refusedFull)
  else if u.stack.contains t then (u, .refusedLoop)
  else if !(u.page t).valid then (u, .refusedEmpty)
  else ({ u with stack := u.stack ++ [t] }, .descended)

/-- R133: ASCEND. -/
def MenuUnit.ascend (u : MenuUnit) : MenuUnit × MenuResult :=
  if 2 ≤ u.stack.length then ({ u with stack := popPage u.stack }, .ascended) else (u, .noChange)

/-- R133, R134: the action of item k of page n, with the result and the value that R135 reports. -/
def MenuUnit.perform (u : MenuUnit) (n k : Nat) (item : Item) : MenuUnit × MenuResult × Nat :=
  match item.action with
  | .descend t => ((u.descend t).1, (u.descend t).2, t)
  | .ascend => (u.ascend.1, u.ascend.2, 0)
  | .command code after => ({ u with stack := afterStack after u.stack }, .command, code)
  | .toggle after =>
    let flipped := u.withToggle n k item (!item.toggle)
    ({ flipped with stack := afterStack after flipped.stack }, .toggled, if item.toggle then 0 else 1)

/-- R131, R132 step 4: the lock after a pick of pen p that reached its action. -/
def MenuUnit.lockFor (u : MenuUnit) (p : Pen) : MenuUnit :=
  { u with owner := if 2 ≤ u.stack.length then some p else none, idleCounter := 0 }

/-- R131, R141: the lock after a forced item: none at depth 0 or 1, else unchanged. -/
def MenuUnit.lockForced (u : MenuUnit) : MenuUnit :=
  if 2 ≤ u.stack.length then u else { u with owner := none, idleCounter := 0 }

/-- R131: the lock is released. -/
def MenuUnit.unlock (u : MenuUnit) : MenuUnit := { u with owner := none, idleCounter := 0 }

/-- R132: what a pick of pen p on item k of page n does, with its result and value. -/
def MenuUnit.pick (u : MenuUnit) (p : Pen) (n k : Nat) : MenuUnit × MenuResult × Nat :=
  if u.owner = some (otherPen p) then (u, .refusedLocked, 0)
  else
    match u.item n k with
    | none => (u, .refusedStale, 0)
    | some item =>
      if u.top = some n then
        ((u.perform n k item).1.lockFor p, (u.perform n k item).2.1, (u.perform n k item).2.2)
      else (u, .refusedStale, 0)

/-- R135: the MENU notice, with the depth and the top after the pick. -/
def MenuUnit.notice (u : MenuUnit) (n k : Nat) (result : MenuResult) (value : Nat)
    (cycled marked forced : Bool) : NoticeBody :=
  .menu n k result value u.stack.length (u.top.getD 0) cycled marked forced

/-- R132, R135: a menu pick of pen p is taken at its grant, and its MENU notice enters the queue. An item
that exists is read before its action, since no action removes an item. -/
def State.menuPick (s : State) (p : Pen) (n k : Nat) (cycled marked : Bool) : State :=
  let r := s.menu.pick p n k
  let route := match s.menu.item n k with
    | some item => onlyChannel item.channel
    | none => s.defaultRoute p
  ({ s with menu := r.1 }).enterNotice route (some p) (r.1.notice n k r.2.1 r.2.2 cycled marked false)

/-- R141: a forced item takes effect; none when it is refused with BAD VALUE. -/
def State.forceItem (s : State) (n k : Nat) : Option State :=
  match s.menu.item n k with
  | none => none
  | some item =>
    if s.menu.top = some n then
      let r := s.menu.perform n k item
      let after := r.1.lockForced
      some (({ s with menu := after }).enterNotice (onlyChannel item.channel) none
        (after.notice n k r.2.1 r.2.2 false false true))
    else none

/-! ### Idle return (R138, R139) -/

/-- R139: the IDLE RETURN notice of a claim, routed to the former owner's default channel. -/
def State.enterIdleReturn (s : State) (c : IdleClaim) : State :=
  s.enterNotice (s.defaultRoute c.owner) (some c.owner) (.idleReturn c.root c.topBefore c.depthBefore)

/-- R139: an IDLE RETURN request. -/
def State.idleRequest (s : State) (c : IdleClaim) : State :=
  if s.menu.claim.isNone && s.hasRoom then s.enterIdleReturn c
  else { s with menu := { s.menu with claim := some c } }

/-- R138: an idle return of owner p. -/
def State.idleReturn (s : State) (p : Pen) : State :=
  let c : IdleClaim := { owner := p, root := s.menu.stack.headD 0, topBefore := s.menu.top.getD 0,
                         depthBefore := s.menu.stack.length }
  ({ s with menu := { s.menu with stack := s.menu.stack.take 1, owner := none, idleCounter := 0 } }).idleRequest c

/-- R138: the Menu Unit takes a frame passage. -/
def State.menuFramePassage (s : State) : State :=
  match s.menu.owner with
  | none => s
  | some p =>
    if s.menu.idleLimit = 0 then s
    else
      let stepped := { s with menu := { s.menu with idleCounter := s.menu.idleCounter + 1 } }
      if stepped.menu.idleCounter = s.menu.idleLimit then stepped.idleReturn p else stepped

end Sys2Proof.Machine
end

