-- ==== Sys2Proof/Machine/Regions.lean ====
section
/-! DEFINITION. The Region Unit (07): boundaries, the crossing test, the winding counters, the latch and the
evaluation. -/

namespace Sys2Proof.Machine

/-- R113: region record r. -/
def RegionUnit.record (u : RegionUnit) (r : Nat) : RegionRecord := Table.read RegionRecord.blank u.records r

/-- R117: a pen's counter and saturation flag for region r. -/
def RegionTest.counter (t : RegionTest) (r : Nat) : Int := Table.read 0 t.counters r
def RegionTest.isSaturated (t : RegionTest) (r : Nat) : Bool := Table.read false t.saturated r

/-! ### The crossing test (R116) -/

/-- R116: the product (x0 - Px)(y1 - y0) + (Py - y0)(x1 - x0). -/
def crossProduct (p p0 p1 : Point) : Int :=
  ((p0.x : Int) - p.x) * ((p1.y : Int) - p0.y) + ((p.y : Int) - p0.y) * ((p1.x : Int) - p0.x)

/-- R116: +1 for an upward edge that crosses, -1 for a downward edge that crosses, else 0. An upward edge
has y1 - y0 positive, a downward one negative. -/
def edgeCrossing (p p0 p1 : Point) : Int :=
  if p0.y ≤ p.y ∧ p.y < p1.y then (if 0 < crossProduct p p0 p1 then 1 else 0)
  else if p1.y ≤ p.y ∧ p.y < p0.y then (if crossProduct p p0 p1 < 0 then -1 else 0)
  else 0

/-- R116: the contribution of a boundary, negated when its reverse field is yes. -/
def contribution (p p0 p1 : Point) (reverse : Bool) : Int :=
  if reverse then -edgeCrossing p p0 p1 else edgeCrossing p p0 p1

/-! ### Counting (R115, R119) -/

/-- R119: region r's counter steps by `c`, or its saturation flag is set when the step would leave
-15..+15. -/
def RegionTest.stepCounter (t : RegionTest) (r : Nat) (c : Int) : RegionTest :=
  if c = 0 then t
  else if t.counter r + c < -Config.maxWinding ∨ Config.maxWinding < t.counter r + c then
    { t with saturated := Table.write false t.saturated r true }
  else { t with counters := Table.write 0 t.counters r (t.counter r + c) }

/-- R119: a boundary passes while the test may be COUNTING. -/
def RegionTest.count (t : RegionTest) (b : Bound) (p0 p1 : Point) : RegionTest :=
  if t.phase = .counting then t.stepCounter b.region (contribution t.latched p0 p1 b.reverse) else t

/-- R115: the boundary that an image makes of a LINE or STEP order. -/
def Image.boundary (img : Image) : Option Bound :=
  match img.kind with
  | .drawing _ bound => bound
  | .unused | .menu _ _ => none

/-- R115, R119: a LINE or STEP order of segment `seg` passes from `p0` to `p1`. -/
def State.countBoundary (s : State) (seg : Nat) (p0 p1 : Point) : State :=
  match (s.image seg).boundary with
  | none => s
  | some b =>
    { s with regions := { s.regions with
        tests := ⟨s.regions.tests.a.count b p0 p1, s.regions.tests.b.count b p0 p1⟩ } }

/-! ### Latch and evaluation (R118, R120) -/

/-- R118: the latch at point `point`. -/
def RegionTest.latch (point : Point) : RegionTest :=
  { phase := .counting, latched := point, counters := [], saturated := [] }

/-- R120: the counter satisfies the rule. -/
def RegionRule.satisfied (rule : RegionRule) (k : Int) : Bool :=
  match rule with
  | .evenOdd => decide (k % 2 ≠ 0)
  | .nonzero => decide (k ≠ 0)

/-- R120: region r is inside. -/
def RegionUnit.inside (u : RegionUnit) (t : RegionTest) (r : Nat) : Bool :=
  (u.record r).enabled && !t.isSaturated r && (u.record r).rule.satisfied (t.counter r)

/-- The region numbers 1..63 (R113). -/
def regionNumbers : List Nat := List.range' 1 Config.lastRegion

/-- R120: among `rs`, in rising order, the first of the highest priority that is inside. -/
def RegionUnit.winnerIn (u : RegionUnit) (t : RegionTest) : List Nat → Option Nat
  | [] => none
  | r :: rs =>
    if u.inside t r then
      match u.winnerIn t rs with
      | none => some r
      | some q => if (u.record r).priority < (u.record q).priority then some q else some r
    else u.winnerIn t rs

/-- R120: the winner of a test. -/
def RegionUnit.winner (u : RegionUnit) (t : RegionTest) : Option Nat := u.winnerIn t regionNumbers

/-- R120: SATURATED-SEEN. -/
def RegionTest.saturatedSeen (t : RegionTest) : Bool := regionNumbers.any t.isSaturated

end Sys2Proof.Machine
end

