-- ==== Sys2Proof/Machine/Attempts.lean ====
section
/-! DEFINITION. The beginning and the ends of a pen's attempt that other blocks bring about: an attempt
starts (R55), ends MISS (R64, R65), or ends because the tracker leaves LOCKED (R67). -/

namespace Sys2Proof.Machine

/-- R55: the counters and flags of a new attempt; the exclusion list is kept. -/
def PenEngine.started (e : PenEngine) (attempt : AttemptState) : PenEngine :=
  { e with attempt := attempt, candidates := [], firstSeen := 0, frameCount := 0, crowded := false }

/-- R64, R65: an attempt of pen p ends MISS. The notice is offered first, with the counts of the attempt;
then both lists are emptied, the echo is cleared (R49), the outcome is written and the next state entered.
A region test is abandoned (R122); outside a region attempt the test phase is IDLE already (R117). -/
def State.endMiss (s : State) (p : Pen) (reason : MissReason) (next : AttemptState) : State :=
  let e := s.pen p
  let offered := s.offerNotice (s.defaultRoute p) (some p)
    (.miss reason e.frameCount e.candidates.length e.crowded)
  let ended := (offered.setPen p
    { e with attempt := next, candidates := [], exclusions := [], lastOutcome := .miss reason }).setEcho p none
  ended.setRegionTest p { ended.regionTest p with phase := .idle }

/-- R67: tracker p tells pen engine p that it has left LOCKED. -/
def State.notifyUnlocked (s : State) (p : Pen) : State :=
  match (s.pen p).attempt with
  | .regionWait => s.endMiss p .track (.settled none false)
  | .regionCount => s.endMiss p .track (.settled none false)
  | .off | .ready | .gathering | .holding _ | .settled _ _ => s

/-- R66: pen engine p takes an expiry. -/
def State.penExpiry (s : State) (p : Pen) : State :=
  match (s.pen p).attempt with
  | .gathering => s.endMiss p .stalled .ready
  | .regionWait => s.endMiss p .stalled .ready
  | .regionCount => s.endMiss p .stalled .ready
  | .off | .ready | .holding _ | .settled _ _ => s

end Sys2Proof.Machine
end

