-- ==== Sys2Proof/Machine/Trackers.lean ====
section
/-! DEFINITION. The trackers and the cross injector (06). -/

namespace Sys2Proof.Machine

/-! ### The tally (R94, R97) -/

/-- R97: the dot index joins the set of its arm. -/
def Tally.add (t : Tally) (arm : Arm) (index : Nat) : Tally :=
  match arm with
  | .e => { t with e := t.e ||| 1#4 <<< (index - 1) }
  | .w => { t with w := t.w ||| 1#4 <<< (index - 1) }
  | .n => { t with n := t.n ||| 1#4 <<< (index - 1) }
  | .s => { t with s := t.s ||| 1#4 <<< (index - 1) }

/-- 6.4: hE - hW and hN - hS. -/
def Tally.dx (t : Tally) : Int := (onesIn t.e 4 : Int) - onesIn t.w 4
def Tally.dy (t : Tally) : Int := (onesIn t.n 4 : Int) - onesIn t.s 4

/-- 6.4: the number of struck dots. -/
def Tally.struck (t : Tally) : Nat := onesIn t.e 4 + onesIn t.w 4 + onesIn t.n 4 + onesIn t.s 4

/-- R97: tracker p receives a cross hit. -/
def State.crossHit (s : State) (p : Pen) (arm : Arm) (index : Nat) : State :=
  let t := s.tracker p
  if t.active && !t.stale then s.setTracker p { t with tally := t.tally.add arm index } else s

/-! ### The cross injector (R95, R96) -/

/-- R95: the point of dot k of an arm of a cross at `c` with pitch `d`. -/
def dotPoint (c : Point) (d : Nat) (arm : Arm) (k : Nat) : Point :=
  match arm with
  | .e => c.displaced (k * d) 0
  | .w => c.displaced (-(k * d)) 0
  | .n => c.displaced 0 (k * d)
  | .s => c.displaced 0 (-(k * d))

/-- R95: the four dots of an arm, from the centre outward. -/
def armDots (p : Pen) (c : Point) (d : Nat) (arm : Arm) : List CrossDot :=
  [1, 2, 3, 4].map fun k => { pen := p, arm := arm, index := k, point := dotPoint c d arm k }

/-- R95: the 16 dots of tracker p's cross, arms E, W, N, S; none when the tracker is not active. -/
def crossDots (p : Pen) (t : Tracker) : List CrossDot :=
  if t.active then
    armDots p t.position t.pitch .e ++ armDots p t.position t.pitch .w
      ++ armDots p t.position t.pitch .n ++ armDots p t.position t.pitch .s
  else []

/-- R95: the stale flag is cleared as the tracker's cross is fixed. -/
def Tracker.crossFixed (t : Tracker) : Tracker := if t.active then { t with stale := false } else t

/-- R95: a FRAME arrives; tracker A's dots are fixed, then tracker B's. -/
def State.fixCrosses (s : State) : State :=
  { s with
    injection := crossDots .a s.trackers.a ++ crossDots .b s.trackers.b
    trackers := ⟨s.trackers.a.crossFixed, s.trackers.b.crossFixed⟩ }

/-- R96: tracker p's remaining dots are dropped. -/
def State.dropDots (s : State) (p : Pen) : State :=
  { s with injection := s.injection.filter fun d => decide (d.pen ≠ p) }

/-! ### Requests (R106, R107) -/

/-- R106: a TRACK request. -/
def State.trackRequest (s : State) (p : Pen) (req : TrackClaim) : State :=
  let t := s.tracker p
  if t.trackClaim.isNone && s.hasRoom then s.enterNotice (s.defaultRoute p) (some p) (.track req)
  else s.setTracker p { t with trackClaim := some req }

/-- R107 case 2, R148: a POSITION notice of pen p that has not begun to be sent and carries no FINAL. -/
def Notice.rewritable (p : Pen) (n : Notice) : Bool :=
  match n.body with
  | .position c => n.pen == some p && n.accepted == 0 && !c.final
  | _ => false

/-- R148: the rewrite in place; channel, pen and REROUTED are kept. -/
def Notice.rewritten (p : Pen) (req : PositionClaim) (n : Notice) : Notice :=
  if n.rewritable p then { n with body := .position req } else n

/-- R107 case 1: a waiting POSITION claim carries FINAL. -/
def Tracker.finalWaits (t : Tracker) : Bool :=
  match t.positionClaim with
  | some c => c.final
  | none => false

/-- R107 cases 2 to 5: what becomes of a POSITION request that is made. -/
def State.placePosition (s : State) (p : Pen) (req : PositionClaim) : State :=
  let t := s.tracker p
  if s.notices.queue.any (Notice.rewritable p) then
    { s with notices := { s.notices with queue := s.notices.queue.map (Notice.rewritten p req) } }
  else if t.positionClaim.isSome then s.setTracker p { t with positionClaim := some req }
  else if !s.positionQueued p && s.hasRoom then
    s.enterNotice (s.defaultRoute p) (some p) (.position req)
  else s.setTracker p { t with positionClaim := some req }

/-- R107: a POSITION request of tracker p; in cases 2 to 5 it becomes the last reported position. -/
def State.positionRequest (s : State) (p : Pen) (req : PositionClaim) : State :=
  if (s.tracker p).finalWaits && !req.final then s
  else
    let placed := s.placePosition p req
    placed.setTracker p { placed.tracker p with lastReported := req.point }

/-! ### The frame close (R98 to R101) -/

/-- R99: when a COASTING tracker's miss count equals the coast limit, the lock is lost. -/
def State.coastLimitReached (s : State) (p : Pen) : State :=
  let t := s.tracker p
  if t.state = .coasting ∧ t.missCount = t.coastLimit then
    (s.setTracker p { t with state := .seeking, missCount := 0 }).trackRequest p
      { event := .lost, point := t.position, origin := t.origin }
  else s

/-- R99: a frame close without a struck dot. The notification of R101 is taken as the state becomes
COASTING, before the coast limit is compared (log 12). -/
def State.coast (s : State) (p : Pen) : State :=
  let t := { s.tracker p with tally := Tally.empty }
  match t.state with
  | .off => s.setTracker p t
  | .seeking => s.setTracker p t
  | .locked =>
    ((s.setTracker p { t with state := .coasting, missCount := 1 }).notifyUnlocked p).coastLimitReached p
  | .coasting => (s.setTracker p { t with missCount := t.missCount + 1 }).coastLimitReached p

/-- R100: the corrected position; offsets are truncated toward zero. -/
def Tracker.corrected (t : Tracker) : Point :=
  t.position.displaced ((t.tally.dx * t.pitch).tdiv 2) ((t.tally.dy * t.pitch).tdiv 2)

/-- R100: a TRACK LOCKED notice is requested when the tracker locks from SEEKING. -/
def State.lockedRequest (s : State) (p : Pen) (before : TrackState) : State :=
  let t := s.tracker p
  if before = .seeking then
    s.trackRequest p { event := .locked, point := t.position, origin := t.origin }
  else s

/-- R107: at a frame close that leaves the tracker LOCKED, a position that differs from the last reported
one is requested. -/
def State.movedRequest (s : State) (p : Pen) : State :=
  let t := s.tracker p
  if t.position ≠ t.lastReported then
    s.positionRequest p { point := t.position, origin := t.origin, final := false }
  else s

/-- R100: a frame close with at least one struck dot. -/
def State.correct (s : State) (p : Pen) : State :=
  let t := s.tracker p
  ((s.setTracker p { t with state := .locked, position := t.corrected, missCount := 0,
                            tally := Tally.empty }).lockedRequest p t.state).movedRequest p

/-- R98 to R100: tracker p takes a frame close. -/
def State.trackerFrameClose (s : State) (p : Pen) : State :=
  let t := s.tracker p
  if !t.active then s
  else if t.settle then s.setTracker p { t with settle := false, tally := Tally.empty }
  else if t.tally.struck = 0 then s.coast p
  else s.correct p

/-! ### Setting and clearing (R101 to R105, R109) -/

/-- R101: the notification, when the tracker was LOCKED. -/
def State.notifyIfLocked (s : State) (p : Pen) (before : TrackState) : State :=
  if before = .locked then s.notifyUnlocked p else s

/-- R102: TRACK SET takes effect. -/
def State.setTrack (s : State) (p : Pen) (point : Point) (pitch coastLimit : Nat) : State :=
  let t := s.tracker p
  (s.setTracker p { t with state := .seeking, position := point, pitch := pitch, coastLimit := coastLimit,
                           missCount := 0, settle := true, stale := true, origin := .host,
                           tally := Tally.empty, lastReported := point }).notifyIfLocked p t.state

/-- R103: the record of a tracker that becomes OFF, with its claims kept. -/
def Tracker.turnedOff (t : Tracker) : Tracker :=
  { t with state := .off, missCount := 0, settle := false, stale := false, tally := Tally.empty }

/-- R103: tracker p becomes OFF as TRACK OFF sets it: its claims are withdrawn, its remaining dots dropped
(R96), and then pen engine p is notified if the tracker was LOCKED (log 13). -/
def State.turnTrackerOff (s : State) (p : Pen) : State :=
  let t := s.tracker p
  ((s.setTracker p { t.turnedOff with trackClaim := none, positionClaim := none }).dropDots p).notifyIfLocked
    p t.state

/-- R104: a drag seed. -/
def State.dragSeed (s : State) (p : Pen) (strike : Point) : State :=
  let t := s.tracker p
  (s.setTracker p { t with state := .seeking, position := strike, missCount := 0, settle := false,
                           stale := true, origin := .drag, tally := Tally.empty,
                           lastReported := strike }).notifyIfLocked p t.state

/-- R105: a drag that ends on release. A waiting TRACK claim is kept. -/
def State.dragEnd (s : State) (p : Pen) : State :=
  let t := s.tracker p
  (((s.setTracker p t.turnedOff).dropDots p).positionRequest p
    { point := t.position, origin := t.origin, final := true }).notifyIfLocked p t.state

/-- R105: a tip up is passed to tracker p. -/
def State.trackerTipUp (s : State) (p : Pen) : State :=
  let t := s.tracker p
  if t.active ∧ t.origin = .drag ∧ (s.pen p).record.dragEnds then s.dragEnd p else s

/-- R109: tracker p takes an expiry. -/
def State.trackerExpiry (s : State) (p : Pen) : State :=
  let t := s.tracker p
  if t.state = .locked ∨ t.state = .coasting then
    ((s.setTracker p { t with state := .seeking, missCount := 0, tally := Tally.empty }).trackRequest p
      { event := .lost, point := t.position, origin := t.origin }).notifyIfLocked p t.state
  else s

end Sys2Proof.Machine
end

