-- ==== Sys2Proof/Machine/PenEngines.lean ====
section
/-! DEFINITION. The pen engines (04, 05): hits and the candidate list, the weighing at a frame close, the
exclusion list, confirmation, delivery, the tip, PEN MODE, and the region attempt at a frame passage. -/

namespace Sys2Proof.Machine

/-! ### The candidate list (R74 to R78) -/

/-- R75: first-seen numbers 0, 1, 2 and onward in list order. -/
def renumberFrom : Nat → List Candidate → List Candidate
  | _, [] => []
  | n, c :: cs => { c with firstSeen := n } :: renumberFrom (n + 1) cs

/-- R75: the engine ready to number a joining record. -/
def PenEngine.renumbered (e : PenEngine) : PenEngine :=
  if e.firstSeen = Config.maxFirstSeen then
    { e with candidates := renumberFrom 0 e.candidates, firstSeen := e.candidates.length }
  else e

/-- R77: a new record joins at the tail. -/
def PenEngine.join (e : PenEngine) (key : Key) (kind : CandidateKind) (strike : Point) : PenEngine :=
  let r := e.renumbered
  { r with
    candidates := r.candidates ++ [{ key := key, kind := kind, history := 0, struck := true,
                                     firstSeen := r.firstSeen, strike := strike }]
    firstSeen := r.firstSeen + 1 }

/-- R78: `c` is a victim before `d`: fewer ones in all 8 bits, or as few and seen earlier. -/
def Candidate.weaker (c d : Candidate) : Bool :=
  decide (onesIn c.history 8 < onesIn d.history 8)
    || (decide (onesIn c.history 8 = onesIn d.history 8) && decide (c.firstSeen < d.firstSeen))

/-- The first element that no other is better than. -/
def bestOf {α : Type} (better : α → α → Bool) : List α → Option α
  | [] => none
  | c :: cs =>
    match bestOf better cs with
    | none => some c
    | some d => if better d c then some d else some c

/-- R78: a hit on a new key while the list is full. -/
def PenEngine.displace (e : PenEngine) (key : Key) (kind : CandidateKind) (strike : Point) : PenEngine :=
  match bestOf Candidate.weaker e.candidates with
  | none => e.join key kind strike
  | some v =>
    if onesIn v.history 8 ≤ 1 then
      ({ e with candidates := e.candidates.filter fun c => decide (c.key ≠ v.key) }).join key kind strike
    else { e with crowded := true }

/-- R76: a hit on the record's key. -/
def Candidate.hit (c : Candidate) (key : Key) (kind : CandidateKind) (strike : Point) : Candidate :=
  if c.key = key then { c with struck := true, kind := kind, strike := strike } else c

/-- R76 to R78: a hit on a key whose segment is `kind`. -/
def PenEngine.recordKey (e : PenEngine) (key : Key) (kind : CandidateKind) (strike : Point) : PenEngine :=
  if e.candidates.any (fun c => decide (c.key = key)) then
    { e with candidates := e.candidates.map fun c => c.hit key kind strike }
  else if e.candidates.length < Config.candidateRecords then e.join key kind strike
  else e.displace key kind strike

/-- R74, R76: the kind of a record on an image; none when the image is UNUSED. -/
def Image.candidateKind (img : Image) : Option CandidateKind :=
  match img.kind with
  | .unused => none
  | .drawing _ _ => some .drawing
  | .menu _ _ => some .menu

/-- R76 to R78: a hit taken in GATHERING. -/
def State.recordHit (s : State) (p : Pen) (key : Key) (strike : Point) : State :=
  match (s.image key.segment).candidateKind with
  | none => s
  | some kind => s.setPen p ((s.pen p).recordKey key kind strike)

/-- R56: a hit in READY: in CONTINUOUS mode on a segment in use it starts an attempt and is recorded. -/
def State.readyHit (s : State) (p : Pen) (key : Key) (strike : Point) : State :=
  if (s.pen p).record.mode = .continuous ∧ (s.image key.segment).kind ≠ .unused then
    (s.setPen p ((s.pen p).started .gathering)).recordHit p key strike
  else s

/-- R56, R58: a hit in SETTLED: in CONTINUOUS mode on the settled key it sets the settled-struck flag. -/
def State.settledHit (s : State) (p : Pen) (settled : Option Key) (key : Key) : State :=
  if (s.pen p).record.mode = .continuous ∧ settled = some key then
    s.setPen p { s.pen p with attempt := .settled settled true }
  else s

/-- R56: pen engine p acts on a hit. -/
def State.hit (s : State) (p : Pen) (key : Key) (strike : Point) : State :=
  match (s.pen p).attempt with
  | .gathering => s.recordHit p key strike
  | .ready => s.readyHit p key strike
  | .settled settled _ => s.settledHit p settled key
  | .off | .regionWait | .regionCount | .holding _ => s

/-! ### Delivery (R63, R90 to R92, R121) -/

/-- R63: the state that pen engine p enters after a delivery. -/
def PenEngine.afterDelivery (e : PenEngine) (key : Option Key) : AttemptState :=
  match e.record.mode with
  | .continuous => .settled key false
  | .off | .press | .region =>
    match e.tip with
    | .down => .settled none false
    | .up => .ready

/-- R63: the outcome is written and the next state entered. -/
def State.finishDelivery (s : State) (p : Pen) (outcome : LastOutcome) (key : Option Key) : State :=
  s.setPen p { s.pen p with attempt := (s.pen p).afterDelivery key, lastOutcome := outcome }

/-- R90: the drag field of an image. -/
def Image.drag (img : Image) : Bool :=
  match img.kind with
  | .drawing drag _ => drag
  | .unused | .menu _ _ => false

/-- R90, R92: the mark of a delivery, when MARK is on. -/
def State.markPicked (s : State) (p : Pen) (seg : Nat) : State :=
  if (s.pen p).record.mark then s.markSegment seg else s

/-- R90, R91: a winner on a DRAWING or UNUSED segment is delivered. -/
def State.deliverPick (s : State) (p : Pen) (key : Key) (strike : Point) (cycled : Bool) : State :=
  let img := s.image key.segment
  let queued := s.enterNotice (s.routeOr img.route p) (some p)
    (.pick key img.cls strike cycled (s.pen p).record.mark img.drag)
  let marked := queued.markPicked p key.segment
  let seeded := if img.drag then marked.dragSeed p strike else marked
  seeded.finishDelivery p .pick (some key)

/-- R92: a winner on a MENU segment, item k of page n, is delivered. -/
def State.deliverMenu (s : State) (p : Pen) (key : Key) (n k : Nat) (cycled : Bool) : State :=
  ((s.menuPick p n k cycled (s.pen p).record.mark).markPicked p key.segment).finishDelivery p .menu (some key)

/-- R121: a region is delivered. -/
def State.deliverRegion (s : State) (p : Pen) (r : Nat) (point : Point) (saturated : Bool) : State :=
  (s.enterNotice (s.routeOr (s.regions.record r).route p) (some p)
    (.region r point saturated)).finishDelivery p .region none

/-- R63: pen engine p delivers an outcome at the grant of its claim; the tables are read as they stand. -/
def State.deliver (s : State) (p : Pen) (outcome : HeldOutcome) : State :=
  match outcome with
  | .region r point saturated => s.deliverRegion p r point saturated
  | .winner key strike cycled =>
    match (s.image key.segment).kind with
    | .menu n k => s.deliverMenu p key n k cycled
    | .unused => s.deliverPick p key strike cycled
    | .drawing _ _ => s.deliverPick p key strike cycled

/-- R62, R145: pen engine p claims an entry. It delivers at once where room exists, and else holds. -/
def State.claimOutcome (s : State) (p : Pen) (outcome : HeldOutcome) : State :=
  if s.hasRoom then s.deliver p outcome
  else s.setPen p { s.pen p with attempt := .holding outcome }

/-! ### The weighing (R80 to R84, R88) -/

/-- R80: the struck flag enters the history as the newest bit and is cleared. -/
def Candidate.shifted (c : Candidate) : Candidate :=
  { c with history := (c.history <<< 1) ||| (if c.struck then 1#8 else 0#8), struck := false }

/-- R80: the shift, and the removal of the records that are all 0. -/
def shiftHistories (cs : List Candidate) : List Candidate :=
  (cs.map Candidate.shifted).filter fun c => decide (c.history ≠ 0)

/-- R81: a record revalidated against the current image; none when it is removed. -/
def State.revalidate (s : State) (classes : BitVec 16) (c : Candidate) : Option Candidate :=
  let img := s.image c.key.segment
  if img.detectable && classes.getLsbD img.cls then
    match img.kind with
    | .unused => none
    | .drawing _ _ => some { c with kind := .drawing }
    | .menu n _ => if s.menu.top = some n then some { c with kind := .menu } else none
  else none

/-- R80, R81: the candidate list after the removals of a frame close. -/
def State.weighedList (s : State) (p : Pen) : List Candidate :=
  (shiftHistories (s.pen p).candidates).filterMap (s.revalidate (s.pen p).record.classes)

/-- R82: at least C ones in the newest W bits. -/
def ModeRecord.quotaMet (r : ModeRecord) (c : Candidate) : Bool := decide (r.c ≤ onesIn c.history r.w)

/-- R82: the qualified set and the exclusion list, after a wrap where the cycle wraps. -/
def PenEngine.qualify (e : PenEngine) (cs : List Candidate) : List Candidate × List Key :=
  let met := cs.filter e.record.quotaMet
  let free := met.filter fun c => !e.exclusions.contains c.key
  if e.record.cycle then
    if free.isEmpty && !met.isEmpty then (met, []) else (free, e.exclusions)
  else (met, e.exclusions)

/-- R83: `c` ranks before `d`: higher priority, then more ones in the newest W bits, then seen earlier. -/
def State.ranksBefore (s : State) (w : Nat) (c d : Candidate) : Bool :=
  let pc := (s.image c.key.segment).priority
  let pd := (s.image d.key.segment).priority
  decide (pd < pc)
    || (decide (pc = pd) &&
      (decide (onesIn d.history w < onesIn c.history w)
        || (decide (onesIn c.history w = onesIn d.history w) && decide (c.firstSeen < d.firstSeen))))

/-- R83: the first of a list in the ranking. -/
def State.rankedFirst (s : State) (w : Nat) (cs : List Candidate) : Option Candidate :=
  bestOf (s.ranksBefore w) cs

/-- R85: a key is added to an exclusion list. -/
def addExclusion (keys : List Key) (key : Key) : List Key :=
  if keys.contains key then keys
  else if keys.length < Config.exclusionKeys then keys ++ [key]
  else keys.drop 1 ++ [key]

/-- R88: the winner is confirmed. `exclusions` is the list after any wrap. -/
def State.confirm (s : State) (p : Pen) (winner : Candidate) (exclusions : List Key) : State :=
  let e := s.pen p
  let after := if e.record.cycle then addExclusion exclusions winner.key else exclusions
  ((s.setPen p { e with candidates := [], exclusions := after }).setEcho p none).claimOutcome p
    (.winner winner.key winner.strike (!exclusions.isEmpty))

/-- R48, R84: with ECHO on, the echo segment of a pen that stays GATHERING. -/
def State.writeEcho (s : State) (p : Pen) (v : Option Nat) : State :=
  if (s.pen p).record.echo then s.setEcho p v else s

/-- R64: the state after MISS SPAN. -/
def Mode.afterSpan : Mode → AttemptState
  | .continuous => .ready
  | .off | .press | .region => .settled none false

/-- R84: the weighing's end, with the list, the qualified set and the exclusion list that it has formed. The
echo that the first two rows write is replaced by none within the same frame close. -/
def State.endWeighing (s : State) (p : Pen) (cs qualified : List Candidate) (exclusions : List Key) : State :=
  let e := { s.pen p with candidates := cs, frameCount := (s.pen p).frameCount + 1, exclusions := exclusions }
  let weighed := s.setPen p e
  match weighed.rankedFirst e.record.w qualified with
  | some winner => weighed.confirm p winner exclusions
  | none =>
    if e.frameCount = e.record.span then weighed.endMiss p .span e.record.mode.afterSpan
    else weighed.writeEcho p ((weighed.rankedFirst e.record.w cs).map (·.key.segment))

/-- R80 to R84: the weighing of a GATHERING pen. -/
def State.weigh (s : State) (p : Pen) : State :=
  let cs := s.weighedList p
  let q := (s.pen p).qualify cs
  s.endWeighing p cs q.1 q.2

/-- R58: a frame close in SETTLED: in CONTINUOUS mode the flag is cleared, or the key discarded. -/
def PenEngine.settledClose (e : PenEngine) (key : Option Key) (struck : Bool) : AttemptState :=
  match e.record.mode with
  | .continuous => if struck then .settled key false else .ready
  | .off | .press | .region => .settled key struck

/-- R60: pen engine p takes a frame close. In every state but OFF and GATHERING, with ECHO on, the echo
becomes none (R48). -/
def State.penFrameClose (s : State) (p : Pen) : State :=
  match (s.pen p).attempt with
  | .gathering => s.weigh p
  | .settled key struck =>
    (s.setPen p { s.pen p with attempt := (s.pen p).settledClose key struck }).writeEcho p none
  | .off => s
  | .ready | .regionWait | .regionCount | .holding _ => s.writeEcho p none

/-! ### The tip (R54, R57, R59) -/

/-- R57, R59: a tip down in READY. -/
def State.startAttempt (s : State) (p : Pen) : State :=
  match (s.pen p).record.mode with
  | .press => s.setPen p ((s.pen p).started .gathering)
  | .region =>
    if (s.tracker p).state = .locked then
      (s.setPen p ((s.pen p).started .regionWait)).setRegionTest p { s.regionTest p with phase := .waiting }
    else (s.setPen p ((s.pen p).started .regionWait)).endMiss p .track (.settled none false)
  | .off | .continuous => s

/-- R54, R57, R59: pen engine p takes a tip down. -/
def State.penTipDown (s : State) (p : Pen) : State :=
  let written := s.setPen p { s.pen p with tip := .down }
  match (s.pen p).attempt with
  | .ready => written.startAttempt p
  | .off | .gathering | .regionWait | .regionCount | .holding _ | .settled _ _ => written

/-- R57, R59: a tip up in SETTLED enters READY in PRESS and REGION mode. -/
def State.settledTipUp (s : State) (p : Pen) : State :=
  match (s.pen p).record.mode with
  | .press | .region => s.setPen p { s.pen p with attempt := .ready }
  | .off | .continuous => s

/-- R57, R58, R59: pen engine p takes a tip up. -/
def State.penTipUp (s : State) (p : Pen) : State :=
  let written := s.setPen p { s.pen p with tip := .up }
  match (s.pen p).attempt with
  | .gathering => if (s.pen p).record.mode = .press then written.endMiss p .released .ready else written
  | .regionWait => written.endMiss p .released .ready
  | .regionCount => written.endMiss p .released .ready
  | .settled _ _ => written.settledTipUp p
  | .off | .ready | .holding _ => written

/-! ### Changing the mode (R68, R69) -/

/-- R68 step 1: the attempt in progress is ended. -/
def State.endForMode (s : State) (p : Pen) : State :=
  match (s.pen p).attempt with
  | .gathering => s.endMiss p .aborted .ready
  | .regionWait => s.endMiss p .aborted .ready
  | .regionCount => s.endMiss p .aborted .ready
  | .holding _ => s.setPen p { s.pen p with attempt := .ready, lastOutcome := .discarded }
  | .off | .ready | .settled _ _ => s

/-- R68 steps 2 and 3, R69: the record is written, both lists emptied, the echo cleared, and READY or OFF
entered. -/
def State.writeMode (s : State) (p : Pen) (record : ModeRecord) (attempt : AttemptState) : State :=
  (s.setPen p { s.pen p with record := record, attempt := attempt, candidates := [],
                             exclusions := [] }).setEcho p none

/-- R69: the Menu Unit releases the lock if pen p holds it. -/
def State.releaseLock (s : State) (p : Pen) : State :=
  if s.menu.owner = some p then { s with menu := s.menu.unlock } else s

/-- R68 step 4: with the tip down, PRESS or REGION starts an attempt at once. -/
def State.restart (s : State) (p : Pen) : State :=
  match (s.pen p).tip with
  | .down => s.startAttempt p
  | .up => s

/-- R68, R69: an accepted PEN MODE is taken by pen engine p. -/
def State.changeMode (s : State) (p : Pen) (record : ModeRecord) : State :=
  match record.mode with
  | .off => (((s.endForMode p).writeMode p record .off).turnTrackerOff p).releaseLock p
  | .press | .continuous | .region => ((s.endForMode p).writeMode p record .ready).restart p

/-! ### The region attempt at a frame passage (R59, R118, R120) -/

/-- R118: the latch; the pen engine moves to REGION-COUNT. -/
def State.latchRegion (s : State) (p : Pen) : State :=
  (s.setRegionTest p (RegionTest.latch (s.tracker p).position)).setPen p
    { s.pen p with attempt := .regionCount }

/-- R120: the evaluation; the winner is claimed, or the attempt ends MISS OUTSIDE. -/
def State.evaluateRegion (s : State) (p : Pen) : State :=
  let t := s.regionTest p
  let idle := s.setRegionTest p { t with phase := .idle }
  match s.regions.winner t with
  | some r => idle.claimOutcome p (.region r t.latched t.saturatedSeen)
  | none => idle.endMiss p .outside (.settled none false)

/-- R118, R120: pen p's region test takes a frame passage. -/
def State.regionFramePassage (s : State) (p : Pen) : State :=
  match (s.regionTest p).phase with
  | .idle => s
  | .waiting => s.latchRegion p
  | .counting => s.evaluateRegion p

end Sys2Proof.Machine
end

