-- ==== Sys2Proof/Machine/Queries.lean ====
section
/-! DEFINITION. The queries (R164): when one is refused, and the REPLY that each subject builds from the state as
it stands when the query takes effect. -/

namespace Sys2Proof.Machine

/-- R179: the fields of a QUERY argument. -/
def querySubject (arg : Arg) : Nat := field arg 12 4
def queryChannel (arg : Arg) : Nat := field arg 10 2
def querySegmentNumber (arg : Arg) : Nat := field arg 0 10
def queryRegionNumber (arg : Arg) : Nat := field arg 0 6
def queryPageNumber (arg : Arg) : Nat := field arg 0 5
def queryItemPage (arg : Arg) : Nat := field arg 4 5
def queryItemNumber (arg : Arg) : Nat := field arg 0 4
def queryPenOf (arg : Arg) : Pen := penOfBit (arg.getLsbD 0)

/-- R164: when a QUERY is refused with BAD VALUE. -/
def queryRefused (arg : Arg) : Bool :=
  match querySubject arg with
  | 0 => decide (querySegmentNumber arg = 0)
  | 1 => decide (queryRegionNumber arg = 0)
  | 3 => decide (Config.itemsPerPage ≤ queryItemNumber arg)
  | n => decide (10 ≤ n)

/-- R33. -/
def State.replySegment (s : State) (n : Nat) : Reply :=
  .segment n (s.image n) ((s.segEntry n).staged.map (·.display))

/-- R125: one pen's values for region r. -/
def RegionTest.countOf (t : RegionTest) (r : Nat) : RegionCount :=
  { phase := t.phase, counter := t.counter r, saturated := t.isSaturated r }

/-- R125. -/
def State.replyRegion (s : State) (r : Nat) : Reply :=
  .region r (s.regions.record r) ⟨s.regions.tests.a.countOf r, s.regions.tests.b.countOf r⟩

/-- R142: QUERY PAGE. -/
def State.replyPage (s : State) (n : Nat) : Reply := .page n (s.menu.page n).valid (s.menu.page n).items

/-- R142: QUERY ITEM. -/
def State.replyItem (s : State) (n k : Nat) : Reply := .item n k (s.menu.item n k)

/-- R142: QUERY STACK. -/
def State.replyStack (s : State) : Reply :=
  .stack s.menu.stack s.menu.owner s.menu.idleCounter s.menu.idleLimit s.menu.claim.isSome

/-- R71: the pen status record. -/
def PenEngine.status (e : PenEngine) : PenStatus :=
  { mode := e.record.mode, cycle := e.record.cycle, mark := e.record.mark, echo := e.record.echo,
    dragEnds := e.record.dragEnds, attempt := e.attempt, tip := e.tip, frameCount := e.frameCount,
    candidates := e.candidates.length, crowded := e.crowded, lastOutcome := e.lastOutcome,
    exclusions := e.exclusions }

/-- R111: the tracker's record, without its tally. -/
def Tracker.status (t : Tracker) : TrackStatus :=
  { state := t.state, position := t.position, pitch := t.pitch, coastLimit := t.coastLimit,
    missCount := t.missCount, settle := t.settle, stale := t.stale, origin := t.origin,
    lastReported := t.lastReported, trackClaim := t.trackClaim.map (·.event),
    positionClaim := t.positionClaim.map (·.final) }

/-- R156: the Notice Unit before the reply enters; the Control Decoder's own claim is the query. -/
def State.channelStatus (s : State) : ChannelStatus :=
  { present := s.notices.present ||| 1#4
    levels := [0, 1, 2, 3].map (Table.read 0 s.notices.levels)
    lru := s.notices.lru
    tieFirst := s.notices.tieFirst
    all := s.notices.all
    notices := s.notices.queue.length
    faults := (s.notices.queue.filter Notice.isFault).length
    claims := { s.claims with decoder := true }
    lastPen := s.notices.lastPen }

/-- R175. -/
def State.replyFaults (s : State) : Reply :=
  .faults s.supervisor.setting s.supervisor.first s.supervisor.stalled s.supervisor.lost s.supervisor.sticky

/-- R165. -/
def State.replyPart (s : State) : Reply := .part s.decoder.cursor s.decoder.endFlag s.decoder.keep

/-- R164: the REPLY of the subject that the argument names; none for a subject code that names none. -/
def State.buildReply (s : State) (arg : Arg) : Option Reply :=
  match querySubject arg with
  | 0 => some (s.replySegment (querySegmentNumber arg))
  | 1 => some (s.replyRegion (queryRegionNumber arg))
  | 2 => some (s.replyPage (queryPageNumber arg))
  | 3 => some (s.replyItem (queryItemPage arg) (queryItemNumber arg))
  | 4 => some s.replyStack
  | 5 => some (.pen (queryPenOf arg) (s.pen (queryPenOf arg)).status)
  | 6 => some (.track (queryPenOf arg) (s.tracker (queryPenOf arg)).status)
  | 7 => some (.channels s.channelStatus)
  | 8 => some s.replyFaults
  | 9 => some s.replyPart
  | _ => none

/-- R175: the fault record is cleared; the stall condition and the setting are not. -/
def Supervisor.cleared (v : Supervisor) : Supervisor := { v with sticky := 0, first := none, lost := false }

/-- R175: QUERY FAULTS clears the fault record once its reply is built; no other query changes its subject. -/
def State.afterReply (s : State) (arg : Arg) : State :=
  if querySubject arg = 8 then { s with supervisor := s.supervisor.cleared } else s

/-- R163, R164: a QUERY takes effect: its REPLY enters, routed to the named channel alone. -/
def State.answerQuery (s : State) (arg : Arg) : State :=
  match s.buildReply arg with
  | some r => (s.afterReply arg).enterNotice (onlyChannel (queryChannel arg)) none (.reply r)
  | none => s

end Sys2Proof.Machine
end

