-- ==== Sys2Proof/Machine/Resets.lean ====
section
/-! DEFINITION. The three reset causes (4.7, R19, R20): power-on, link reset, and the internal reset that ends
RESET PART. -/

namespace Sys2Proof.Machine

/-- R61: an attempt is in progress in GATHERING, REGION-WAIT, REGION-COUNT and HOLDING. -/
def AttemptState.inProgress : AttemptState → Bool
  | .gathering | .regionWait | .regionCount | .holding _ => true
  | .off | .ready | .settled _ _ => false

/-- R72: a pen engine at a link reset; the tip record is kept. -/
def PenEngine.linkReset (e : PenEngine) : PenEngine :=
  { PenEngine.reset with
    tip := e.tip
    lastOutcome := if e.attempt.inProgress then .reset else .none }

/-- R36: with keep-tables set, current images are kept and pending images discarded. -/
def SegEntry.kept (e : SegEntry) : SegEntry := { e with staged := none }

/-- R36: the Segment Table at a link reset. -/
def keptSegments (keep : Bool) (t : Table SegEntry) : Table SegEntry :=
  if keep then Table.mapAll SegEntry.blank SegEntry.kept t else []

/-- R126, R143: a table that a link reset keeps whole, or clears. -/
def keptTable {α : Type} (keep : Bool) (t : Table α) : Table α := if keep then t else []

/-- R19, R36, R51, R72, R112, R126, R143, R157, R168, R176: every block takes a link reset. The tables read
the keep-tables flag before the same reset clears it (R166). -/
def State.resetAll (s : State) : State :=
  let keep := s.decoder.keep
  { State.reset with
    link := { held := none, downstream := s.link.downstream }
    segments := keptSegments keep s.segments
    pens := ⟨s.pens.a.linkReset, s.pens.b.linkReset⟩
    regions := { State.reset.regions with records := keptTable keep s.regions.records }
    menu := { MenuUnit.reset with pages := keptTable keep s.menu.pages }
    pending := s.pending
    draws := s.draws }

/-- R19: a link reset. -/
def State.linkReset (s : State) : State := s.resetAll

/-- R20, R167: the internal reset, which in each block is its link reset behaviour; the Decoder returns to
IDLE. -/
def State.internalReset (s : State) : State := s.resetAll

/-- POWER_ON: every block takes its power-on values. -/
def execPowerOn (s : State) : Host.Outcome State Fault Refusal :=
  .next { State.reset with pending := s.pending, draws := s.draws }

/-- LINK_RESET (R19). -/
def execLinkReset (s : State) : Host.Outcome State Fault Refusal := .next s.linkReset

end Sys2Proof.Machine
end

