-- ==== Sys2Proof/Machine/Orders.lean ====
section
/-! DEFINITION. What each control order does when it takes effect, with the check of its values (R160 step 1).
`ctrl` is the order's CTRL word, the context word of every fault raised for it. -/

namespace Sys2Proof.Machine

/-- R160 step 1: the order is refused for an out-of-range value. -/
def State.badValue (s : State) (ctrl : Word) : State := s.raiseFault .badValue ctrl

/-! ### Segment Table -/

/-- SEG CURSOR (R161). -/
def State.orderSegCursor (s : State) (ctrl : Word) : State :=
  let n := (ctrlArg ctrl).toNat
  if 1 ≤ n ∧ n ≤ Config.lastSegment then
    { s with decoder := { s.decoder with cursor := n, endFlag := false } }
  else s.badValue ctrl

/-- R25, R26: the entry after an image is written to it. -/
def SegEntry.loaded (e : SegEntry) (now : Bool) (img : Image) : SegEntry :=
  if now then { current := img, staged := none } else { e with staged := some img }

/-- R161: the cursor after a written image. -/
def ControlDecoder.advanced (d : ControlDecoder) : ControlDecoder :=
  if d.cursor < Config.lastSegment then { d with cursor := d.cursor + 1 } else { d with endFlag := true }

/-- R161: an image is written at the cursor. -/
def State.writeImage (s : State) (now : Bool) (img : Image) : State :=
  let n := s.decoder.cursor
  { s.setSegEntry n ((s.segEntry n).loaded now img) with decoder := s.decoder.advanced }

/-- R161, R162: the images of a load, first image first. An image due while the end flag is set is discarded
with every later one, and BAD INDEX is raised once. -/
def State.loadImages (now : Bool) (ctrl : Word) : List Image → State → State
  | [], s => s
  | img :: rest, s =>
    if s.decoder.endFlag then s.raiseFault .badIndex ctrl
    else State.loadImages now ctrl rest (s.writeImage now img)

/-- SEG LOAD, SEG LOAD NOW (R25 to R27). -/
def State.orderSegLoad (s : State) (now : Bool) (ctrl : Word) (data : List Word) : State :=
  match (pairUp data).bind decodeImages with
  | some imgs => State.loadImages now ctrl imgs s
  | none => s.badValue ctrl

/-- R28: the run's segments, first to last. -/
def runOf (first last : Nat) : List Nat := List.range' first (last + 1 - first)

/-- R28: the display value into one entry of a run. -/
def State.showSegment (d : Display) (s : State) (n : Nat) : State :=
  s.setSegEntry n ((s.segEntry n).withDisplay d)

/-- SEG SHOW (R28). -/
def State.orderSegShow (s : State) (ctrl run : Word) : State :=
  let first := field run 16 16
  let last := field run 0 16
  if 1 ≤ first ∧ last ≤ Config.lastSegment ∧ first ≤ last then
    (runOf first last).foldl (State.showSegment (displayOfCode (field (ctrlArg ctrl) 0 2))) s
  else s.badValue ctrl

/-! ### Regions and menus -/

/-- REGION LOAD (R114). -/
def State.orderRegionLoad (s : State) (ctrl record : Word) : State :=
  let r := field (ctrlArg ctrl) 0 6
  if r = 0 then s.badValue ctrl
  else
    { s with regions := { s.regions with
        records := Table.write RegionRecord.blank s.regions.records r (decodeRegion record) } }

/-- PAGE LOAD: bit 10 of the argument is the valid flag, 3:0 the item count, 15:11 the page (R179). -/
def pageLoadValid (arg : Arg) : Bool := arg.getLsbD 10
def pageLoadCount (arg : Arg) : Nat := field arg 0 4
def pageLoadPage (arg : Arg) : Nat := field arg 11 5

/-- R128: the page record is replaced whole. -/
def State.setPage (s : State) (n : Nat) (record : PageRecord) : State :=
  { s with menu := { s.menu with pages := Table.write PageRecord.blank s.menu.pages n record } }

/-- PAGE LOAD (R128). -/
def State.orderPageLoad (s : State) (ctrl : Word) (data : List Word) : State :=
  let arg := ctrlArg ctrl
  if pageLoadValid arg then
    if pageLoadCount arg = 0 ∨ Config.itemsPerPage < pageLoadCount arg then s.badValue ctrl
    else
      match decodeItems data with
      | some items => s.setPage (pageLoadPage arg) { valid := true, items := items }
      | none => s.badValue ctrl
  else s.setPage (pageLoadPage arg) PageRecord.blank

/-- MENU ROOT (R130). -/
def State.orderMenuRoot (s : State) (ctrl : Word) : State :=
  { s with menu := { s.menu.unlock with stack := [field (ctrlArg ctrl) 0 5] } }

/-- MENU CLOSE (R130). -/
def State.orderMenuClose (s : State) : State :=
  { s with menu := { s.menu.unlock with stack := [] } }

/-- MENU UNLOCK (R140). -/
def State.orderMenuUnlock (s : State) : State := { s with menu := s.menu.unlock }

/-- MENU IDLE (R140). -/
def State.orderMenuIdle (s : State) (ctrl : Word) : State :=
  { s with menu := { s.menu with idleLimit := field (ctrlArg ctrl) 0 8, idleCounter := 0 } }

/-- FORCE ITEM: page 8:4, item 3:0 (R179). -/
def forcePage (arg : Arg) : Nat := field arg 4 5
def forceItemNumber (arg : Arg) : Nat := field arg 0 4

/-- FORCE ITEM takes effect at its grant (R141); refused, it leaves the entry free. -/
def State.effectForceItem (s : State) (ctrl : Word) : State :=
  match s.forceItem (forcePage (ctrlArg ctrl)) (forceItemNumber (ctrlArg ctrl)) with
  | some after => after
  | none => s.badValue ctrl

/-! ### Pens and trackers -/

/-- PEN MODE (R53, R68, R69). -/
def State.orderPenMode (s : State) (ctrl record : Word) : State :=
  let p := argPen (ctrlArg ctrl)
  let r := decodeMode (s.pen p).record.fence (ctrlArg ctrl) record
  if modeInRange r then s.changeMode p r else s.badValue ctrl

/-- R45: the fence record of pen p. -/
def State.setFence (s : State) (p : Pen) (fence : Fence) : State :=
  s.setPen p { s.pen p with record := { (s.pen p).record with fence := fence } }

/-- PEN FENCE (R45). -/
def State.orderPenFence (s : State) (ctrl w1 w2 : Word) : State :=
  match decodeFence (ctrlArg ctrl) w1 w2 with
  | some fence => s.setFence (argPen (ctrlArg ctrl)) fence
  | none => s.badValue ctrl

/-- PEN CLEAR EXCLUSIONS (R87). -/
def State.orderPenClearExclusions (s : State) (ctrl : Word) : State :=
  let p := argPen (ctrlArg ctrl)
  s.setPen p { s.pen p with exclusions := [] }

/-- TRACK SET: pitch 14:8, coast limit 3:0 (R179). -/
def trackPitch (arg : Arg) : Nat := field arg 8 7
def trackCoast (arg : Arg) : Nat := field arg 0 4

/-- TRACK SET (R102). -/
def State.orderTrackSet (s : State) (ctrl point : Word) : State :=
  let arg := ctrlArg ctrl
  if (s.pen (argPen arg)).record.mode ≠ .off ∧ 2 ≤ trackPitch arg ∧ trackPitch arg ≤ 64 ∧ trackCoast arg ≠ 0 then
    s.setTrack (argPen arg) (dataPoint point) (trackPitch arg) (trackCoast arg)
  else s.badValue ctrl

/-- TRACK OFF (R103). -/
def State.orderTrackOff (s : State) (ctrl : Word) : State := s.turnTrackerOff (argPen (ctrlArg ctrl))

/-! ### Display and routing -/

/-- BLINK RATE (R47). -/
def State.orderBlinkRate (s : State) (ctrl : Word) : State :=
  let b := field (ctrlArg ctrl) 0 4
  if b = 0 then s.badValue ctrl
  else { s with rewrite := { s.rewrite with halfPeriod := b, counter := 0 } }

/-- CHANNEL PRESENT (R155): channel 0 stays present. -/
def State.orderChannelPresent (s : State) (ctrl : Word) : State :=
  { s with notices := { s.notices with present := (ctrlArg ctrl).extractLsb' 0 4 ||| 1#4 } }

/-- CHANNEL LEVEL (R155): channel 5:4, level 3:0. -/
def State.orderChannelLevel (s : State) (ctrl : Word) : State :=
  { s with notices := { s.notices with
      levels := Table.write 0 s.notices.levels (field (ctrlArg ctrl) 4 2) (field (ctrlArg ctrl) 0 4) } }

/-- ROUTE MODE (R155): bit 1 the tie-break, bit 0 ALL. -/
def State.orderRouteMode (s : State) (ctrl : Word) : State :=
  { s with notices := { s.notices with
      tieFirst := (ctrlArg ctrl).getLsbD 1, all := (ctrlArg ctrl).getLsbD 0 } }

/-! ### The part -/

/-- KEEP TABLES (R166): the whole argument is the value. -/
def State.orderKeepTables (s : State) (ctrl : Word) : State :=
  if (ctrlArg ctrl).toNat ≤ 1 then
    { s with decoder := { s.decoder with keep := decide ((ctrlArg ctrl).toNat = 1) } }
  else s.badValue ctrl

/-- RESET PART (R167): the internal reset at once with nothing in flight, else the drain. -/
def State.orderResetPart (s : State) : State :=
  if s.beam.flight = [] then s.internalReset
  else { s with decoder := { s.decoder with state := .drain } }

/-- FRAME TIMEOUT (R170): in STALLED the timer stays STALLED. -/
def State.orderFrameTimeout (s : State) (ctrl : Word) : State :=
  let setting := field (ctrlArg ctrl) 0 8
  let timer := match s.supervisor.timer with
    | .stalled => TimerState.stalled
    | .off => timerOfSetting setting
    | .running _ => timerOfSetting setting
  { s with supervisor := { s.supervisor with setting := setting, timer := timer } }

end Sys2Proof.Machine
end

