-- ==== Sys2Proof/Machine/Decoder.lean ====
section
/-! DEFINITION. The upstream input and the Control Decoder (R1, R2, 10): the arrival of a word, the collection
of a control order, its checks, and the orders that wait for notice room. -/

namespace Sys2Proof.Machine

/-- R179: the control orders. -/
inductive OrderName where
  | segCursor
  | segLoad
  | segLoadNow
  | segShow
  | regionLoad
  | pageLoad
  | menuRoot
  | menuClose
  | menuUnlock
  | menuIdle
  | forceItem
  | penMode
  | penFence
  | penClearExclusions
  | trackSet
  | trackOff
  | blinkRate
  | channelPresent
  | channelLevel
  | routeMode
  | keepTables
  | resetPart
  | frameTimeout
  | query
  deriving DecidableEq, Repr

/-- R179: the code of each order. -/
def OrderName.code : OrderName → Nat
  | .segCursor => 0x01
  | .segLoad => 0x02
  | .segLoadNow => 0x03
  | .segShow => 0x04
  | .regionLoad => 0x10
  | .pageLoad => 0x20
  | .menuRoot => 0x21
  | .menuClose => 0x22
  | .menuUnlock => 0x23
  | .menuIdle => 0x24
  | .forceItem => 0x25
  | .penMode => 0x30
  | .penFence => 0x31
  | .penClearExclusions => 0x32
  | .trackSet => 0x40
  | .trackOff => 0x41
  | .blinkRate => 0x50
  | .channelPresent => 0x60
  | .channelLevel => 0x61
  | .routeMode => 0x62
  | .keepTables => 0x70
  | .resetPart => 0x71
  | .frameTimeout => 0x72
  | .query => 0x7F

/-- R179: every order, in the order of the table. -/
def orderNames : List OrderName :=
  [.segCursor, .segLoad, .segLoadNow, .segShow, .regionLoad, .pageLoad, .menuRoot, .menuClose,
   .menuUnlock, .menuIdle, .forceItem, .penMode, .penFence, .penClearExclusions, .trackSet, .trackOff,
   .blinkRate, .channelPresent, .channelLevel, .routeMode, .keepTables, .resetPart, .frameTimeout, .query]

/-- R159, R179: the order that a code names; none for an unknown code. -/
def orderOfCode (code : Nat) : Option OrderName := orderNames.find? fun o => decide (o.code = code)

/-- R159: the data count that each order expects. -/
def OrderName.countRight (o : OrderName) (arg : Arg) (count : Nat) : Bool :=
  match o with
  | .segLoad => decide (count % 2 = 0) && decide (2 ≤ count) && decide (count ≤ 14)
  | .segLoadNow => decide (count % 2 = 0) && decide (2 ≤ count) && decide (count ≤ 14)
  | .segShow => decide (count = 1)
  | .regionLoad => decide (count = 1)
  | .pageLoad => decide (count = if pageLoadValid arg then pageLoadCount arg else 0)
  | .penMode => decide (count = 1)
  | .penFence => decide (count = 2)
  | .trackSet => decide (count = 1)
  | .segCursor | .menuRoot | .menuClose | .menuUnlock | .menuIdle | .forceItem | .penClearExclusions
  | .trackOff | .blinkRate | .channelPresent | .channelLevel | .routeMode | .keepTables | .resetPart
  | .frameTimeout | .query => decide (count = 0)

/-! ### Orders that wait for notice room (R163) -/

/-- R163: QUERY or FORCE ITEM takes effect at its grant. -/
def State.effectHeld (s : State) (ctrl : Word) : State :=
  match orderOfCode (ctrlCode ctrl) with
  | some .forceItem => s.effectForceItem ctrl
  | _ => s.answerQuery (ctrlArg ctrl)

/-- R163: one entry is claimed; the order takes effect at once where room exists, and else is HELD. -/
def State.claimEntry (s : State) (ctrl : Word) : State :=
  if s.hasRoom then s.effectHeld ctrl
  else { s with decoder := { s.decoder with state := .held ctrl } }

/-- FORCE ITEM at its last word (R141): items 12..15 are refused before any claim. -/
def State.orderForceItem (s : State) (ctrl : Word) : State :=
  if Config.itemsPerPage ≤ forceItemNumber (ctrlArg ctrl) then s.badValue ctrl else s.claimEntry ctrl

/-- QUERY at its last word (R164). -/
def State.orderQuery (s : State) (ctrl : Word) : State :=
  if queryRefused (ctrlArg ctrl) then s.badValue ctrl else s.claimEntry ctrl

/-! ### The last word of an order (R159, R160) -/

/-- R160: an order with the right data count acts. -/
def State.act (s : State) (o : OrderName) (ctrl : Word) (data : List Word) : State :=
  match o with
  | .segCursor => s.orderSegCursor ctrl
  | .segLoad => s.orderSegLoad false ctrl data
  | .segLoadNow => s.orderSegLoad true ctrl data
  | .segShow => s.orderSegShow ctrl (data.headD 0)
  | .regionLoad => s.orderRegionLoad ctrl (data.headD 0)
  | .pageLoad => s.orderPageLoad ctrl data
  | .menuRoot => s.orderMenuRoot ctrl
  | .menuClose => s.orderMenuClose
  | .menuUnlock => s.orderMenuUnlock
  | .menuIdle => s.orderMenuIdle ctrl
  | .forceItem => s.orderForceItem ctrl
  | .penMode => s.orderPenMode ctrl (data.headD 0)
  | .penFence => s.orderPenFence ctrl (data.headD 0) ((data.drop 1).headD 0)
  | .penClearExclusions => s.orderPenClearExclusions ctrl
  | .trackSet => s.orderTrackSet ctrl (data.headD 0)
  | .trackOff => s.orderTrackOff ctrl
  | .blinkRate => s.orderBlinkRate ctrl
  | .channelPresent => s.orderChannelPresent ctrl
  | .channelLevel => s.orderChannelLevel ctrl
  | .routeMode => s.orderRouteMode ctrl
  | .keepTables => s.orderKeepTables ctrl
  | .resetPart => s.orderResetPart
  | .frameTimeout => s.orderFrameTimeout ctrl
  | .query => s.orderQuery ctrl

/-- R159: at an order's last word its code and data count are checked first. -/
def State.takeOrder (s : State) (ctrl : Word) (data : List Word) : State :=
  match orderOfCode (ctrlCode ctrl) with
  | none => s.raiseFault .badControl ctrl
  | some o =>
    if o.countRight (ctrlArg ctrl) data.length then s.act o ctrl data
    else s.raiseFault .badControl ctrl

/-! ### Arrivals (R1, R2, R158) -/

/-- R158: a data word joins the order being collected; the last one returns the Decoder to IDLE, and the
order acts. -/
def State.takeData (s : State) (ctrl : Word) (got : List Word) (w : Word) : State :=
  let data := got ++ [w]
  if data.length < ctrlCount ctrl then
    { s with decoder := { s.decoder with state := .collecting ctrl data } }
  else ({ s with decoder := { s.decoder with state := .idle } }).takeOrder ctrl data

/-- R158: a CTRL word in IDLE starts an order. -/
def State.takeCtrl (s : State) (ctrl : Word) : State :=
  if ctrlCount ctrl = 0 then s.takeOrder ctrl []
  else { s with decoder := { s.decoder with state := .collecting ctrl [] } }

/-- R2: any other word becomes the held word. -/
def State.hold (s : State) (w : Word) : State := { s with link := { s.link with held := some w } }

/-- R2: a word outside a collection is routed by its kind code. A FRAME starts cross injection (R11, R95). -/
def State.takeWord (s : State) (w : Word) : State :=
  match wordKind w with
  | .ctrl => s.takeCtrl w
  | .frame => (s.hold w).fixCrosses
  | .move | .line | .step | .dot | .glyph | .seg | .pass | .reserved => s.hold w

/-- R1, R2: a word is offered upstream. While upstream ready is low the display controller keeps it. -/
def State.arrive (s : State) (w : Word) : State :=
  if s.upstreamReady then
    match s.decoder.state with
    | .collecting ctrl got => s.takeData ctrl got w
    | .idle => s.takeWord w
    | .held _ => s
    | .drain => s
  else s

/-- Words offered one after another. -/
def State.arriveAll (s : State) (ws : List Word) : State := ws.foldl State.arrive s

/-- The words of a control order: its CTRL word, with the data count, and its data words (10, R179). -/
def orderWords (o : OrderName) (arg : Arg) (data : List Word) : List Word :=
  ctrlWord o.code data.length arg :: data

/-- The words of an order arrive (log 2). -/
def State.arriveOrder (s : State) (o : OrderName) (arg : Arg) (data : List Word) : State :=
  s.arriveAll (orderWords o arg data)

/-- R179: the data words of the images of a load. -/
def imageWords : List (Word × Word) → List Word
  | [] => []
  | (w1, w2) :: rest => w1 :: w2 :: imageWords rest

/-- A QUERY of a subject arrives. -/
def State.arriveQuery (s : State) (subject : Nat) (channel : BitVec 2) (params : BitVec 10) : State :=
  s.arriveOrder .query (queryArg subject channel params) []

/-- WORD_ARRIVAL (R2). -/
def execWordArrival (w : Word) (s : State) : Host.Outcome State Fault Refusal := .next (s.arrive w)

/-- SEG CURSOR (R161). -/
def execSegCursor (arg : Arg) (s : State) : Host.Outcome State Fault Refusal :=
  .next (s.arriveOrder .segCursor arg [])

/-- SEG LOAD (R25). -/
def execSegLoad (arg : Arg) (images : List (Word × Word)) (s : State) : Host.Outcome State Fault Refusal :=
  .next (s.arriveOrder .segLoad arg (imageWords images))

/-- SEG LOAD NOW (R26). -/
def execSegLoadNow (arg : Arg) (images : List (Word × Word)) (s : State) :
    Host.Outcome State Fault Refusal :=
  .next (s.arriveOrder .segLoadNow arg (imageWords images))

/-- SEG SHOW (R28). -/
def execSegShow (arg : Arg) (run : Word) (s : State) : Host.Outcome State Fault Refusal :=
  .next (s.arriveOrder .segShow arg [run])

/-- REGION LOAD (R114). -/
def execRegionLoad (arg : Arg) (record : Word) (s : State) : Host.Outcome State Fault Refusal :=
  .next (s.arriveOrder .regionLoad arg [record])

/-- PAGE LOAD (R128). -/
def execPageLoad (arg : Arg) (items : List Word) (s : State) : Host.Outcome State Fault Refusal :=
  .next (s.arriveOrder .pageLoad arg items)

/-- MENU ROOT (R130). -/
def execMenuRoot (arg : Arg) (s : State) : Host.Outcome State Fault Refusal :=
  .next (s.arriveOrder .menuRoot arg [])

/-- MENU CLOSE (R130). -/
def execMenuClose (arg : Arg) (s : State) : Host.Outcome State Fault Refusal :=
  .next (s.arriveOrder .menuClose arg [])

/-- MENU UNLOCK (R140). -/
def execMenuUnlock (arg : Arg) (s : State) : Host.Outcome State Fault Refusal :=
  .next (s.arriveOrder .menuUnlock arg [])

/-- MENU IDLE (R140). -/
def execMenuIdle (arg : Arg) (s : State) : Host.Outcome State Fault Refusal :=
  .next (s.arriveOrder .menuIdle arg [])

/-- FORCE ITEM (R141). -/
def execForceItem (arg : Arg) (s : State) : Host.Outcome State Fault Refusal :=
  .next (s.arriveOrder .forceItem arg [])

/-- PEN MODE (R68, R69). -/
def execPenMode (arg : Arg) (record : Word) (s : State) : Host.Outcome State Fault Refusal :=
  .next (s.arriveOrder .penMode arg [record])

/-- PEN FENCE (R45). -/
def execPenFence (arg : Arg) (word1 word2 : Word) (s : State) : Host.Outcome State Fault Refusal :=
  .next (s.arriveOrder .penFence arg [word1, word2])

/-- PEN CLEAR EXCLUSIONS (R87). -/
def execPenClearExclusions (arg : Arg) (s : State) : Host.Outcome State Fault Refusal :=
  .next (s.arriveOrder .penClearExclusions arg [])

/-- TRACK SET (R102). -/
def execTrackSet (arg : Arg) (point : Word) (s : State) : Host.Outcome State Fault Refusal :=
  .next (s.arriveOrder .trackSet arg [point])

/-- TRACK OFF (R103). -/
def execTrackOff (arg : Arg) (s : State) : Host.Outcome State Fault Refusal :=
  .next (s.arriveOrder .trackOff arg [])

/-- BLINK RATE (R47). -/
def execBlinkRate (arg : Arg) (s : State) : Host.Outcome State Fault Refusal :=
  .next (s.arriveOrder .blinkRate arg [])

/-- CHANNEL PRESENT (R155). -/
def execChannelPresent (arg : Arg) (s : State) : Host.Outcome State Fault Refusal :=
  .next (s.arriveOrder .channelPresent arg [])

/-- CHANNEL LEVEL (R155). -/
def execChannelLevel (arg : Arg) (s : State) : Host.Outcome State Fault Refusal :=
  .next (s.arriveOrder .channelLevel arg [])

/-- ROUTE MODE (R155). -/
def execRouteMode (arg : Arg) (s : State) : Host.Outcome State Fault Refusal :=
  .next (s.arriveOrder .routeMode arg [])

/-- KEEP TABLES (R166). -/
def execKeepTables (arg : Arg) (s : State) : Host.Outcome State Fault Refusal :=
  .next (s.arriveOrder .keepTables arg [])

/-- RESET PART (R167). -/
def execResetPart (arg : Arg) (s : State) : Host.Outcome State Fault Refusal :=
  .next (s.arriveOrder .resetPart arg [])

/-- FRAME TIMEOUT (R170). -/
def execFrameTimeout (arg : Arg) (s : State) : Host.Outcome State Fault Refusal :=
  .next (s.arriveOrder .frameTimeout arg [])

/-- QUERY SEGMENT (R33). -/
def execQuerySegment (channel : BitVec 2) (params : BitVec 10) (s : State) :
    Host.Outcome State Fault Refusal :=
  .next (s.arriveQuery 0 channel params)

/-- QUERY REGION (R125). -/
def execQueryRegion (channel : BitVec 2) (params : BitVec 10) (s : State) :
    Host.Outcome State Fault Refusal :=
  .next (s.arriveQuery 1 channel params)

/-- QUERY PAGE (R142). -/
def execQueryPage (channel : BitVec 2) (params : BitVec 10) (s : State) :
    Host.Outcome State Fault Refusal :=
  .next (s.arriveQuery 2 channel params)

/-- QUERY ITEM (R142). -/
def execQueryItem (channel : BitVec 2) (params : BitVec 10) (s : State) :
    Host.Outcome State Fault Refusal :=
  .next (s.arriveQuery 3 channel params)

/-- QUERY STACK (R142). -/
def execQueryStack (channel : BitVec 2) (params : BitVec 10) (s : State) :
    Host.Outcome State Fault Refusal :=
  .next (s.arriveQuery 4 channel params)

/-- QUERY PEN (R71). -/
def execQueryPen (channel : BitVec 2) (params : BitVec 10) (s : State) :
    Host.Outcome State Fault Refusal :=
  .next (s.arriveQuery 5 channel params)

/-- QUERY TRACK (R111). -/
def execQueryTrack (channel : BitVec 2) (params : BitVec 10) (s : State) :
    Host.Outcome State Fault Refusal :=
  .next (s.arriveQuery 6 channel params)

/-- QUERY CHANNELS (R156). -/
def execQueryChannels (channel : BitVec 2) (params : BitVec 10) (s : State) :
    Host.Outcome State Fault Refusal :=
  .next (s.arriveQuery 7 channel params)

/-- QUERY FAULTS (R175). -/
def execQueryFaults (channel : BitVec 2) (params : BitVec 10) (s : State) :
    Host.Outcome State Fault Refusal :=
  .next (s.arriveQuery 8 channel params)

/-- QUERY PART (R165). -/
def execQueryPart (channel : BitVec 2) (params : BitVec 10) (s : State) :
    Host.Outcome State Fault Refusal :=
  .next (s.arriveQuery 9 channel params)

end Sys2Proof.Machine
end

