-- ==== Sys2Proof/Machine/NoticeWords.lean ====
section
/-! DEFINITION. The words of a notice (R181, R182). Reserved bits, and contents without meaning, are sent
as 0. -/

namespace Sys2Proof.Machine

/-- A value in the field of `len` bits whose lowest bit is bit `lo`. -/
def put (v lo len : Nat) : Nat := v % 2 ^ len * 2 ^ lo

def bit (b : Bool) (lo : Nat) : Nat := if b then 2 ^ lo else 0

def word (n : Nat) : Word := BitVec.ofNat 32 n

/-- R181: a payload word that holds a point. -/
def pointWord (p : Point) : Word := word (put p.x 16 12 + put p.y 0 12)

/-! ### Codes (R179, R181) -/

def Display.code : Display → Nat
  | .normal => 0
  | .highlight => 1
  | .blink => 2
  | .blank => 3

def MissReason.code : MissReason → Nat
  | .span => 0
  | .released => 1
  | .outside => 2
  | .track => 3
  | .aborted => 4
  | .stalled => 5

def MenuResult.code : MenuResult → Nat
  | .descended => 0
  | .ascended => 1
  | .noChange => 2
  | .command => 3
  | .toggled => 4
  | .refusedLocked => 8
  | .refusedStale => 9
  | .refusedFull => 10
  | .refusedLoop => 11
  | .refusedEmpty => 12

def TrackOrigin.isDrag : TrackOrigin → Bool
  | .host => false
  | .drag => true

def TrackEvent.code : TrackEvent → Nat
  | .locked => 1
  | .lost => 2

def TrackState.code : TrackState → Nat
  | .off => 0
  | .seeking => 1
  | .locked => 2
  | .coasting => 3

def TestPhase.code : TestPhase → Nat
  | .idle => 0
  | .waiting => 1
  | .counting => 2

def LastOutcome.code : LastOutcome → Nat
  | .none => 0
  | .pick => 1
  | .region => 2
  | .menu => 3
  | .discarded => 4
  | .reset => 5
  | .miss reason => 8 + reason.code

def AfterAction.code : AfterAction → Nat
  | .stay => 0
  | .ascend => 1
  | .root => 2

def Action.code : Action → Nat
  | .descend _ => 0
  | .ascend => 1
  | .command _ _ => 2
  | .toggle _ => 3

/-- R181: 0 none, 1 A, 2 B. -/
def ownerCode : Option Pen → Nat
  | none => 0
  | some .a => 1
  | some .b => 2

def penIsB : Pen → Bool
  | .a => false
  | .b => true

/-- R181: the pen of a header: 0 A, 1 B, 3 none. -/
def headerPen : Option Pen → Nat
  | some .a => 0
  | some .b => 1
  | none => 3

/-- R181: the pen state code, which combines the mode and the attempt state. An OFF pen is 0. -/
def penStateCode (mode : Mode) (attempt : AttemptState) : Nat :=
  match mode, attempt with
  | _, .off => 0
  | .off, _ => 0
  | .press, .ready => 1
  | .press, .gathering => 2
  | .press, .holding _ => 3
  | .press, .settled _ _ => 4
  | .continuous, .ready => 5
  | .continuous, .gathering => 6
  | .continuous, .holding _ => 7
  | .continuous, .settled _ _ => 8
  | .region, .ready => 9
  | .region, .regionWait => 10
  | .region, .regionCount => 11
  | .region, .holding _ => 12
  | .region, .settled _ _ => 13
  | .region, .gathering => 0
  | .press, .regionWait => 0
  | .press, .regionCount => 0
  | .continuous, .regionWait => 0
  | .continuous, .regionCount => 0

/-! ### Records in words (R179, R182) -/

/-- The kind of an image, and word 2 with the fields that the kind carries. -/
def SegKind.code : SegKind → Nat
  | .unused => 0
  | .drawing _ _ => 1
  | .menu _ _ => 2

def boundBits : Option Bound → Nat
  | none => 0
  | some b => put b.region 0 6 + bit b.reverse 6

/-- R181, R182: word 1 of an image "as loaded". An UNUSED image sends its blank values and the display
written since (R22, R33; log 14). -/
def Image.word1 (img : Image) : Word :=
  word (put img.kind.code 30 2 + bit img.detectable 29 + put img.display.code 27 2 + put img.cls 23 4
    + put img.priority 20 3 + bit (decide (img.grain = .element)) 19 + img.route.toNat)

def Image.word2 (img : Image) : Word :=
  match img.kind with
  | .unused => word 0
  | .drawing drag bound => word (bit drag 7 + boundBits bound)
  | .menu page item => word (put page 4 5 + put item 0 4)

/-- R179: a region record as REGION LOAD carries it. -/
def RegionRecord.word (r : RegionRecord) : Word :=
  Machine.word (bit r.enabled 9 + bit (decide (r.rule = .nonzero)) 8 + put r.priority 4 4 + r.route.toNat)

/-- R181: a pen's half of word 2 of the REGION reply; the counter in two's complement. -/
def RegionCount.bits (c : RegionCount) : Nat :=
  put c.phase.code 8 2 + bit c.saturated 7 + (BitVec.ofInt 5 c.counter).toNat

/-- R179: the value field and the after-action field of an item word. -/
def Action.bits : Action → Nat
  | .descend t => put t 0 5
  | .ascend => 0
  | .command code after => put code 0 8 + put after.code 27 2
  | .toggle after => put after.code 27 2

/-- R179: the item word. -/
def Item.word (i : Item) : Word :=
  Machine.word (put i.action.code 29 3 + i.action.bits + bit i.toggle 26 + put i.channel 24 2)

/-- R181: items of the PAGE reply, 4 bits for each, the first at bit 0. -/
def itemNibbles : List Item → Nat
  | [] => 0
  | i :: rest => put i.action.code 0 2 + bit i.toggle 2 + 16 * itemNibbles rest

/-- R181: page i from the root in 5i+4..5i. -/
def stackBits : List Nat → Nat
  | [] => 0
  | n :: rest => put n 0 5 + 32 * stackBits rest

/-- R180: a key in 23 bits. -/
def Key.bits (k : Key) : Nat :=
  match k.element with
  | .ordinal n => put k.segment 13 10 + put n 0 12
  | .whole => put k.segment 13 10 + bit true 12

/-- R180, R181: payload word 1 of a PICK. -/
def Element.bits : Element → Nat
  | .ordinal n => put n 0 12
  | .whole => bit true 12

/-- R182: the four key slots of 23 bits, oldest first, in the 92 bits below the candidate count. -/
def exclusionBits : Nat → List Key → Nat
  | 0, _ => 0
  | _ + 1, [] => 0
  | n + 1, k :: rest => k.bits * 2 ^ (23 * n) + exclusionBits n rest

/-- R182: the 96 bits of the three payload words of the PEN reply. -/
def PenStatus.bits (s : PenStatus) : Nat := put s.candidates 92 4 + exclusionBits 4 s.exclusions

/-- R181: the levels, channel c at 4c+3..4c; R181: the LRU order, 2 bits for each place. -/
def nibbles : List Nat → Nat
  | [] => 0
  | n :: rest => put n 0 4 + 16 * nibbles rest

def pairsOfBits : List Nat → Nat
  | [] => 0
  | n :: rest => put n 0 2 + 4 * pairsOfBits rest

/-- R181: claims waiting, bits 24 to 31. -/
def ClaimsWaiting.bits (c : ClaimsWaiting) : Nat :=
  bit c.decoder 24 + bit c.pens.a 25 + bit c.pens.b 26 + bit c.tracks.a 27 + bit c.positions.a 28
    + bit c.tracks.b 29 + bit c.positions.b 30 + bit c.idleReturn 31

/-- R181: 0 none, 1 waiting, 2 waiting with FINAL. -/
def positionClaimCode : Option Bool → Nat
  | none => 0
  | some false => 1
  | some true => 2

def trackClaimCode : Option TrackEvent → Nat
  | none => 0
  | some e => e.code

/-! ### REPLY (R181) -/

/-- The reply subject s. -/
def Reply.subject : Reply → Nat
  | .segment _ _ _ => 0
  | .region _ _ _ => 1
  | .page _ _ _ => 2
  | .item _ _ _ => 3
  | .stack _ _ _ _ _ => 4
  | .pen .a _ => 5
  | .pen .b _ => 6
  | .track .a _ => 7
  | .track .b _ => 8
  | .channels _ => 9
  | .faults _ _ _ _ _ => 10
  | .part _ _ _ => 11

/-- Header bits 19:0 of a PEN reply. R181 gives the tip bit no code: that 1 stands for DOWN is the model's choice
(DESIGN CHOICE, log 22). -/
def PenStatus.header (s : PenStatus) : Nat :=
  put s.frameCount 14 6 + put s.lastOutcome.code 10 4 + bit s.crowded 9 + bit (decide (s.tip = .down)) 8
    + bit s.cycle 7 + bit s.mark 6 + bit s.echo 5 + bit s.dragEnds 4 + put (penStateCode s.mode s.attempt) 0 4

/-- Header bits 19:0 of a TRACK reply. -/
def TrackStatus.header (s : TrackStatus) : Nat :=
  bit s.origin.isDrag 19 + bit s.stale 18 + bit s.settle 17 + put s.pitch 10 7 + put s.coastLimit 6 4
    + put s.missCount 2 4 + put s.state.code 0 2

/-- Header bits 19:0 of a CHANNELS reply. -/
def ChannelStatus.header (s : ChannelStatus) : Nat :=
  bit s.all 18 + bit s.tieFirst 17 + bit (penIsB s.lastPen) 16 + put s.faults 10 6 + put s.notices 4 6
    + s.present.toNat

/-- Header bits 19:0 of a REPLY. R182 does not say what a FAULTS reply sends in the first fault kind when no first
fault is recorded: 0 is the model's choice (DESIGN CHOICE, log 23). -/
def Reply.header : Reply → Nat
  | .segment n _ none => put n 0 10
  | .segment n _ (some d) => put d.code 11 2 + bit true 10 + put n 0 10
  | .region r _ _ => put r 0 6
  | .page n valid items => put items.length 6 4 + bit valid 5 + put n 0 5
  | .item n k found => bit found.isSome 9 + put n 4 5 + put k 0 4
  | .stack pages owner _ _ claim => bit claim 5 + put (ownerCode owner) 3 2 + put pages.length 0 3
  | .pen _ s => s.header
  | .track _ s => s.header
  | .channels s => s.header
  | .faults setting first stalled lost sticky =>
    put setting 12 8 + bit first.isSome 11 + put ((first.map fun f => faultCode f.1).getD 0) 8 3
      + bit stalled 7 + bit lost 6 + sticky.toNat
  | .part cursor endFlag keep => put cursor 10 10 + bit endFlag 9 + bit keep 8 + put Config.partCode 0 8

/-- Payload words of a REPLY. -/
def Reply.payload : Reply → List Word
  | .segment _ img _ => [img.word1, img.word2]
  | .region _ record counts => [record.word, word (counts.b.bits * 2 ^ 16 + counts.a.bits)]
  | .page _ _ items => [word (itemNibbles (items.take 8)), word (itemNibbles (items.drop 8))]
  | .item _ _ none => [word 0]
  | .item _ _ (some i) => [i.word]
  | .stack pages _ counter limit _ => [word (stackBits pages), word (put counter 8 8 + put limit 0 8)]
  | .pen _ s => [word (s.bits / 2 ^ 64), word (s.bits / 2 ^ 32), word s.bits]
  | .track _ s => [pointWord s.position, pointWord s.lastReported,
      word (positionClaimCode s.positionClaim * 4 + trackClaimCode s.trackClaim)]
  | .channels s => [word (s.claims.bits + pairsOfBits s.lru * 2 ^ 16 + nibbles s.levels)]
  | .faults _ first _ _ _ => [(first.map (·.2)).getD 0#32]
  | .part _ _ _ =>
    [word (put Config.flightPlaces 26 4 + put Config.itemsPerPage 22 4 + put Config.pageCount 16 6
        + put Config.lastRegion 10 6 + put Config.lastSegment 0 10),
     word (put Config.channelCount 13 3 + put Config.queueEntries 7 6 + put Config.exclusionKeys 4 3
        + put Config.candidateRecords 0 4)]

/-! ### Notices (R181) -/

/-- The kind code, 31:28. -/
def NoticeBody.kindCode : NoticeBody → Nat
  | .pick _ _ _ _ _ _ => 0
  | .region _ _ _ => 1
  | .menu _ _ _ _ _ _ _ _ _ => 2
  | .miss _ _ _ _ => 3
  | .position _ => 4
  | .track _ => 5
  | .idleReturn _ _ _ => 6
  | .fault _ _ _ _ _ => 7
  | .reply r => 8 + r.subject % 8

/-- Header bits 20:0. -/
def NoticeBody.header : NoticeBody → Nat
  | .pick key cls _ cycled marked drag =>
    bit cycled 20 + bit marked 19 + bit drag 18 + put cls 10 4 + put key.segment 0 10
  | .region r _ saturated => bit saturated 20 + put r 0 6
  | .menu page item result _ _ _ cycled marked forced =>
    bit cycled 20 + bit marked 19 + bit forced 18 + put result.code 12 4 + put page 4 5 + put item 0 4
  | .miss reason frames candidates crowded =>
    bit crowded 20 + put candidates 9 4 + put frames 3 6 + put reason.code 0 3
  | .position c => bit c.final 20 + bit c.origin.isDrag 19
  | .track c => bit (decide (c.event = .lost)) 20 + bit c.origin.isDrag 19
  | .idleReturn root top depth => put depth 10 3 + put top 5 5 + put root 0 5
  | .fault kind _ first lost sticky =>
    bit first 20 + bit lost 19 + sticky.toNat * 2 ^ 8 + faultCode kind
  | .reply r => bit (decide (8 ≤ r.subject)) 20 + r.header

/-- The payload words. A MENU notice at depth 0 sends top page 0 (R182). -/
def NoticeBody.payload : NoticeBody → List Word
  | .pick key _ strike _ _ _ => [word key.element.bits, pointWord strike]
  | .region _ point _ => [pointWord point]
  | .menu _ _ _ value depth top _ _ _ =>
    [word ((if depth = 0 then 0 else put top 16 5) + put depth 8 3 + put value 0 8)]
  | .miss _ _ _ _ => []
  | .position c => [pointWord c.point]
  | .track c => [pointWord c.point]
  | .idleReturn _ _ _ => []
  | .fault _ context _ _ _ => [context]
  | .reply r => r.payload

/-- R181: the header word. -/
def Notice.headerWord (n : Notice) : Word :=
  word (put n.body.kindCode 28 4 + put n.channel 26 2 + put (headerPen n.pen) 24 2
    + put n.body.payload.length 22 2 + bit n.rerouted 21 + n.body.header)

/-- R182: the words of a notice, header first. -/
def Notice.words (n : Notice) : List Word := n.headerWord :: n.body.payload

/-- R144: the length of a notice, 1 to 4 words. -/
def Notice.length (n : Notice) : Nat := n.words.length

/-- R146: the word presented on the notice lane, none while the queue is empty. -/
def State.presentedWord (s : State) : Option Word :=
  match s.notices.queue with
  | [] => none
  | n :: _ => n.words[n.accepted]?

end Sys2Proof.Machine
end

