-- ==== Sys2Proof/Machine/NoticeLane.lean ====
section
/-! DEFINITION. The notice lane and the grants (R146, R150, R151). -/

namespace Sys2Proof.Machine

/-- R149: the claims that can wait. -/
inductive Claimant where
  | decoder
  | penEngine (p : Pen)
  | track (p : Pen)
  | position (p : Pen)
  | idleReturn
  deriving DecidableEq, Repr

/-- R149, R150: the claim waits and is not passed over. A tracker's POSITION claim is passed over while a
POSITION notice of the same pen stands in the queue. -/
def State.grantable (s : State) : Claimant → Bool
  | .decoder => s.decoder.state.isHeld
  | .penEngine p => (s.pen p).attempt.isHolding
  | .track p => (s.tracker p).trackClaim.isSome
  | .position p => (s.tracker p).positionClaim.isSome && !s.positionQueued p
  | .idleReturn => s.menu.claim.isSome

/-- R150, R151: the order in which waiting claims are served. -/
def State.grantOrder (s : State) : List Claimant :=
  [.decoder, .penEngine (otherPen s.notices.lastPen), .penEngine s.notices.lastPen,
   .track .a, .position .a, .track .b, .position .b, .idleReturn]

/-- R150: the claim that is granted next; none without room. -/
def State.nextGrant (s : State) : Option Claimant :=
  if s.entryFree then s.grantOrder.find? s.grantable else none

/-- R163: the held order takes effect, and the Decoder returns to IDLE. -/
def State.grantDecoder (s : State) : State :=
  match s.decoder.state with
  | .held ctrl => ({ s with decoder := { s.decoder with state := .idle } }).effectHeld ctrl
  | .idle | .collecting _ _ | .drain => s

/-- R63, R151: pen engine p delivers, and becomes the last pen granted. -/
def State.grantPen (s : State) (p : Pen) : State :=
  match (s.pen p).attempt with
  | .holding outcome =>
    ({ s with notices := { s.notices with lastPen := p } }).deliver p outcome
  | .off | .ready | .gathering | .regionWait | .regionCount | .settled _ _ => s

/-- R108: tracker p's TRACK claim. -/
def State.grantTrack (s : State) (p : Pen) : State :=
  match (s.tracker p).trackClaim with
  | some c =>
    (s.setTracker p { s.tracker p with trackClaim := none }).enterNotice (s.defaultRoute p) (some p) (.track c)
  | none => s

/-- R108: tracker p's POSITION claim. -/
def State.grantPosition (s : State) (p : Pen) : State :=
  match (s.tracker p).positionClaim with
  | some c =>
    (s.setTracker p { s.tracker p with positionClaim := none }).enterNotice (s.defaultRoute p) (some p)
      (.position c)
  | none => s

/-- R139: the IDLE RETURN claim. -/
def State.grantIdleReturn (s : State) : State :=
  match s.menu.claim with
  | some c => ({ s with menu := { s.menu with claim := none } }).enterIdleReturn c
  | none => s

/-- R150: one grant. -/
def State.grant (s : State) : Claimant → State
  | .decoder => s.grantDecoder
  | .penEngine p => s.grantPen p
  | .track p => s.grantTrack p
  | .position p => s.grantPosition p
  | .idleReturn => s.grantIdleReturn

/-- R150: the grants that a freed entry brings, one at a time as long as room lasts. At most eight claims
wait (R149), so eight grants serve them all. -/
def State.grantRound : Nat → State → State
  | 0, s => s
  | n + 1, s =>
    match s.nextGrant with
    | none => s
    | some c => State.grantRound n (s.grant c)

/-- R149: the most claims that can wait. -/
def maxClaims : Nat := 8

/-- R146: the state in which the accept of the head's last word has freed its entry, before any grant; none
where the next accept frees none. -/
def State.freeing (s : State) : Option State :=
  match s.notices.queue with
  | [] => none
  | n :: rest =>
    if n.accepted + 1 < n.length then none
    else some { s with notices := { s.notices with queue := rest } }

/-- R146: an accept. The grants of R150 follow within it. -/
def State.acceptWord (s : State) : State :=
  match s.freeing with
  | some freed => State.grantRound maxClaims freed
  | none =>
    match s.notices.queue with
    | [] => s
    | n :: rest =>
      { s with notices := { s.notices with queue := { n with accepted := n.accepted + 1 } :: rest } }

/-- R150: a grant is made within the accept that frees an entry, and at no other time. A grant command is that
accept, where the claim that it names is the first to be granted; else there is no such grant (log 8). -/
def State.grantAtFreeing (s : State) (c : Claimant) : State :=
  match s.freeing with
  | some freed => if freed.nextGrant = some c then s.acceptWord else s
  | none => s

/-- NOTICE_ACCEPT (R146). -/
def execNoticeAccept (s : State) : Host.Outcome State Fault Refusal := .next s.acceptWord

/-- PEN_GRANT (R63). -/
def execPenGrant (p : Pen) (s : State) : Host.Outcome State Fault Refusal :=
  .next (s.grantAtFreeing (.penEngine p))

/-- DECODER_GRANT (R163). -/
def execDecoderGrant (s : State) : Host.Outcome State Fault Refusal := .next (s.grantAtFreeing .decoder)

/-- TRACK_CLAIM_GRANT (R108). -/
def execTrackClaimGrant (p : Pen) (s : State) : Host.Outcome State Fault Refusal :=
  .next (s.grantAtFreeing (.track p))

/-- POSITION_CLAIM_GRANT (R108). -/
def execPositionClaimGrant (p : Pen) (s : State) : Host.Outcome State Fault Refusal :=
  .next (s.grantAtFreeing (.position p))

/-- IDLE_RETURN_GRANT (R139). -/
def execIdleReturnGrant (s : State) : Host.Outcome State Fault Refusal := .next (s.grantAtFreeing .idleReturn)

end Sys2Proof.Machine
end

