-- ==== Sys2Proof/Machine/Retires.lean ====
section
/-! DEFINITION. Retires and the frame close (R14, R15), strikes (R16, R17), tip events (R54), the frame
timer (11). -/

namespace Sys2Proof.Machine

/-! ### Retires (R14, R15) -/

/-- R169: the frame timer takes a frame close. -/
def Supervisor.frameClose (v : Supervisor) : Supervisor :=
  match v.timer with
  | .off => v
  | .running _ => { v with timer := timerOfSetting v.setting }
  | .stalled => { v with timer := timerOfSetting v.setting }

/-- R60, R98: a pen engine or tracker takes the frame close. -/
def State.blockClose (s : State) : CloseBlock → State
  | .penEngine p => s.penFrameClose p
  | .tracker p => s.trackerFrameClose p

/-- R14: the frame close, in the order given (log 3). -/
def State.frameClose (s : State) (order : List CloseBlock) : State :=
  (closeOrder order).foldl State.blockClose { s with supervisor := s.supervisor.frameClose }

/-- R14: what the removal of an entry does, by its kind. -/
def State.retired (s : State) (order : List CloseBlock) (e : Entry) : State :=
  match e.kind with
  | .move | .line | .step | .dot | .glyph => { s with beam := { s.beam with afterglow := some e } }
  | .seg | .pass => s
  | .frame => ({ s with beam := { s.beam with afterglow := none } }).frameClose order

/-- R167: the retire that empties the Flight List ends a drain with the internal reset. -/
def State.endDrain (s : State) : State :=
  if s.decoder.state = .drain ∧ s.beam.flight = [] then s.internalReset else s

/-- R14, R15: a done indication. -/
def State.takeRetire (s : State) (order : List CloseBlock) : State :=
  match s.beam.flight with
  | [] => s.raiseFault .spuriousRetire 0#32
  | e :: rest => (({ s with beam := { s.beam with flight := rest } }).retired order e).endDrain

/-- RETIRE (R14). -/
def execRetire (order : List CloseBlock) (s : State) : Host.Outcome State Fault Refusal :=
  .next (s.takeRetire order)

/-- INTERNAL_RESET (R167): in DRAIN, the retire that empties the Flight List and the internal reset after it;
with no entry in flight, the internal reset. At any other time it cannot happen (log 9). -/
def execInternalReset (order : List CloseBlock) (s : State) : Host.Outcome State Fault Refusal :=
  if s.decoder.state = .drain then
    match s.beam.flight with
    | [] => .next s.internalReset
    | [_] => .next (s.takeRetire order)
    | _ :: _ :: _ => .next s
  else .next s

/-! ### Strikes (R16, R17) -/

/-- R16: drawing-kind for attribution. -/
def EntryKind.drawingKind : EntryKind → Bool
  | .move | .line | .step | .dot | .glyph => true
  | .seg | .frame | .pass => false

/-- R17: the struck flag for pen p is set. -/
def Entry.withStruck (e : Entry) (p : Pen) : Entry := { e with struck := e.struck.set p true }

/-- R16: the oldest drawing-kind entry. -/
def strikeTarget : List Entry → Option Entry
  | [] => none
  | e :: rest => if e.kind.drawingKind then some e else strikeTarget rest

/-- R17: the list with the struck flag for pen p set on the oldest drawing-kind entry. -/
def strikeList (p : Pen) : List Entry → List Entry
  | [] => []
  | e :: rest => if e.kind.drawingKind then e.withStruck p :: rest else e :: strikeList p rest

/-- R17: the delivery of a strike from pen p on a target whose flag was clear. -/
def State.deliverStrike (s : State) (p : Pen) (e : Entry) : State :=
  match e.origin with
  | .stream => if e.kind ≠ .move ∧ e.mask.get p = true then s.hit p e.key e.endPt else s
  | .cross q arm index => if q = p then s.crossHit p arm index else s

/-- R16, R17: a strike from pen p. -/
def State.takeStrike (s : State) (p : Pen) : State :=
  match strikeTarget s.beam.flight with
  | some e =>
    if e.struck.get p then s
    else ({ s with beam := { s.beam with flight := strikeList p s.beam.flight } }).deliverStrike p e
  | none =>
    match s.beam.afterglow with
    | some e =>
      if e.struck.get p then s
      else ({ s with beam := { s.beam with afterglow := some (e.withStruck p) } }).deliverStrike p e
    | none => s

/-- STRIKE (R16). -/
def execStrike (p : Pen) (s : State) : Host.Outcome State Fault Refusal := .next (s.takeStrike p)

/-! ### Tip events (R54) -/

/-- TIP_DOWN (R54). The two tip events alternate, so with the tip DOWN there is none (log 1). A tip down has
no effect on the tracker (R105). -/
def execTipDown (p : Pen) (s : State) : Host.Outcome State Fault Refusal :=
  match (s.pen p).tip with
  | .up => .next (s.penTipDown p)
  | .down => .next s

/-- TIP_UP (R54, R105): the pen engine takes it before the tracker. -/
def execTipUp (p : Pen) (s : State) : Host.Outcome State Fault Refusal :=
  match (s.pen p).tip with
  | .down => .next ((s.penTipUp p).trackerTipUp p)
  | .up => .next s

/-! ### The frame timer (R169 to R173) -/

/-- R181: the Control Decoder state in the STALL context word. -/
def DecoderState.code : DecoderState → Nat
  | .idle => 0
  | .collecting _ _ => 1
  | .held _ => 2
  | .drain => 3

/-- R173, R181: the context word of STALL. -/
def State.stallContext (s : State) : Word :=
  BitVec.ofNat 32 (s.supervisor.setting % 256 * 2 ^ 8 + s.decoder.state.code * 2 ^ 5
    + (if s.link.held.isSome then 2 ^ 4 else 0) + s.beam.flight.length % 16)

/-- R171: a pen engine or tracker takes the expiry. -/
def State.blockExpiry (s : State) : CloseBlock → State
  | .penEngine p => s.penExpiry p
  | .tracker p => s.trackerExpiry p

/-- R171: an expiry: the stall is set, STALL raised, and the blocks take it in the order given (log 5). -/
def State.expire (s : State) (order : List Pen) : State :=
  (expiryOrder order).foldl State.blockExpiry
    (({ s with supervisor := { s.supervisor with timer := .stalled } }).raiseFault .stall s.stallContext)

/-- FRAME_TIMER_EXPIRY (R171): the time that remains runs out. A timer that is OFF or STALLED does not run
(R169), so it cannot expire (log 1, 7). -/
def execFrameTimerExpiry (order : List Pen) (s : State) : Host.Outcome State Fault Refusal :=
  match s.supervisor.timer with
  | .running _ => .next (s.expire order)
  | .off => .next s
  | .stalled => .next s

/-- R169, log 6: one millisecond passes. When the time remaining reaches 0 the timer expires, and the blocks
take the expiry in an order that nothing constrains. -/
def State.tick (s : State) : State :=
  match s.supervisor.timer with
  | .running remaining =>
    if remaining ≤ 1 then { s.expire (Config.expiryOrder s.draws) with draws := s.draws + 1 }
    else { s with supervisor := { s.supervisor with timer := .running (remaining - 1) } }
  | .off => s
  | .stalled => s

end Sys2Proof.Machine
end

