-- ==== Sys2Proof/Machine/Eligibility.lean ====
section
/-! DEFINITION. Eligibility and Rewrite (03): the intensity sent, the eligibility tests, the fences, the blink
phase. -/

namespace Sys2Proof.Machine

/-! ### The intensity rewrite (R40) -/

/-- R40 row 5. -/
def State.echoed (s : State) (seg : Nat) : Bool :=
  decide (s.rewrite.echo.a = some seg) || decide (s.rewrite.echo.b = some seg)

/-- R40 rows 6 to 8, with `lit` for the toggle state of a MENU item. -/
def State.displayIntensity (s : State) (seg : Nat) (lit : Bool) (i : Nat) : Nat :=
  let display := (s.image seg).display
  if s.echoed seg then 7
  else if display = .highlight ∨ lit = true then 7
  else if display = .blink ∧ s.rewrite.phaseOn = false then 0
  else i

/-- R40: the intensity sent for an order of segment `seg` received at intensity `i`. The image of segment 0
is UNUSED (row 1). -/
def State.sentIntensity (s : State) (seg i : Nat) : Nat :=
  if i = 0 then 0
  else
    match (s.image seg).kind with
    | .unused => i
    | .drawing _ _ => if (s.image seg).display = .blank then 0 else s.displayIntensity seg false i
    | .menu n k =>
      if s.menu.shown n k = .hidden then 0
      else if (s.image seg).display = .blank then 0
      else if s.menu.shown n k = .belowTop then min i 2
      else s.displayIntensity seg ((s.menu.item n k).any (·.toggle)) i

/-! ### Fences (R43, R44) -/

/-- R43: the bounding box of the two points shares a point with the rectangle. -/
def boxMeets (p q : Point) (xmin xmax ymin ymax : Nat) : Bool :=
  decide (min p.x q.x ≤ xmax) && decide (xmin ≤ max p.x q.x)
    && decide (min p.y q.y ≤ ymax) && decide (ymin ≤ max p.y q.y)

/-- R43, R44: pen p's fence test of an order from `p1` to `p2`. -/
def State.fencePasses (s : State) (p : Pen) (p1 p2 : Point) : Bool :=
  match (s.pen p).record.fence with
  | .none => true
  | .fixed xmin xmax ymin ymax => boxMeets p1 p2 xmin xmax ymin ymax
  | .follow hx hy =>
    let t := s.tracker p
    !t.active || boxMeets p1 p2 (clampCoord ((t.position.x : Int) - hx)) (clampCoord ((t.position.x : Int) + hx))
      (clampCoord ((t.position.y : Int) - hy)) (clampCoord ((t.position.y : Int) + hy))

/-! ### Eligibility (R42) -/

/-- R42 test 1. -/
def Mode.picks : Mode → Bool
  | .off => false
  | .press | .continuous | .region => true

/-- R42 tests 3 and 7: the entry is DRAWING, or MENU with its button shown on top, and detectable. -/
def State.entryPickable (s : State) (seg : Nat) : Bool :=
  (s.image seg).detectable &&
    match (s.image seg).kind with
    | .unused => false
    | .drawing _ _ => true
    | .menu n k => decide (s.menu.shown n k = .onTop)

/-- R42: the seven tests for pen p of an order of segment `seg` from `p1` to `p2`, drawn at `sent`.
`lit` is false for a beam-off STEP (test 2). -/
def State.eligible (s : State) (p : Pen) (seg : Nat) (lit : Bool) (p1 p2 : Point) (sent : Nat) : Bool :=
  (s.pen p).record.mode.picks && lit && decide (seg ≠ 0) && s.entryPickable seg
    && (s.pen p).record.classes.getLsbD (s.image seg).cls && decide (sent ≠ 0) && s.fencePasses p p1 p2

/-! ### The blink phase (R46) -/

/-- R46: a frame passage steps the blink counter. -/
def EligibilityRewrite.blinkStep (r : EligibilityRewrite) : EligibilityRewrite :=
  if r.counter + 1 = r.halfPeriod then { r with phaseOn := !r.phaseOn, counter := 0 }
  else { r with counter := r.counter + 1 }

end Sys2Proof.Machine
end

