-- ==== Sys2Proof/Machine/Stream.lean ====
section
/-! DEFINITION. The passages (01): the held word, or a cross dot, goes downstream and one entry joins the
Flight List. A passage command finds its word held and room in the Flight List, or the word waits and nothing
changes (log 1). -/

namespace Sys2Proof.Machine

/-- The empty eligibility mask, and struck flags that are clear (R12). -/
def noPens : Pair Bool := ⟨false, false⟩

/-- R9: the element counter after a drawing order; it stops at 4095. -/
def nextElement (n : Nat) : Nat := min (n + 1) Config.maxElement

/-- R12: the element of the key of a drawing order of segment `seg` that took ordinal `n`. -/
def State.keyElement (s : State) (seg n : Nat) : Element :=
  match (s.image seg).kind with
  | .unused => .ordinal n
  | .drawing _ _ => if (s.image seg).grain = .segment then .whole else .ordinal n
  | .menu _ _ => if (s.image seg).grain = .segment then .whole else .ordinal n

/-- R3, R13: `sent` goes downstream, the holding place becomes empty, and an entry joins the tail. -/
def State.sendHeld (s : State) (sent : Word) (entry : Entry) : State :=
  { s with
    link := { held := none, downstream := some sent }
    beam := { s.beam with flight := s.beam.flight ++ [entry] } }

/-- An entry of origin STREAM with an empty mask. -/
def plainEntry (kind : EntryKind) (key : Key) (endPt : Point) : Entry :=
  { origin := .stream, kind := kind, key := key, endPt := endPt, mask := noPens, struck := noPens }

/-- R3: the passage of the held word when it is of kind `k`. -/
def State.passHeld (s : State) (k : WordKind) (pass : Word → State) : State :=
  match s.link.held with
  | some w => if wordKind w = k ∧ s.flightHasRoom = true then pass w else s
  | none => s

/-- R6: the passage of a MOVE. -/
def State.passMove (s : State) (w : Word) : State :=
  let sent := s.sendHeld w (plainEntry .move ⟨s.beam.segment, .ordinal s.beam.element⟩ (orderPoint w))
  { sent with beam := { sent.beam with position := orderPoint w } }

/-- R38: the intensity decided for a drawing order at its passage. -/
def State.decidedIntensity (s : State) (w : Word) : Nat :=
  s.sentIntensity s.beam.segment (orderIntensity w)

/-- R38, R42: the entry of a drawing order from `p0` to `p1`; `lit` is false for a beam-off STEP. -/
def State.drawnEntry (s : State) (kind : EntryKind) (w : Word) (lit : Bool) (p0 p1 : Point) : Entry :=
  let seg := s.beam.segment
  let sent := s.decidedIntensity w
  { origin := .stream
    kind := kind
    key := ⟨seg, s.keyElement seg s.beam.element⟩
    endPt := p1
    mask := ⟨s.eligible .a seg lit p0 p1 sent, s.eligible .b seg lit p0 p1 sent⟩
    struck := noPens }

/-- R6 to R9, R38: the passage of a LINE, STEP, DOT or GLYPH from `p0` to `p1`. -/
def State.passDrawn (s : State) (kind : EntryKind) (w : Word) (lit : Bool) (p0 p1 : Point) : State :=
  let sent := s.sendHeld (withIntensity w (s.decidedIntensity w)) (s.drawnEntry kind w lit p0 p1)
  { sent with beam := { sent.beam with position := p1, element := nextElement s.beam.element } }

/-- R6: the passage of a LINE, which may be a boundary (R115). -/
def State.passLine (s : State) (w : Word) : State :=
  (s.passDrawn .line w true s.beam.position (orderPoint w)).countBoundary s.beam.segment
    s.beam.position (orderPoint w)

/-- R6: the passage of a DOT. -/
def State.passDot (s : State) (w : Word) : State :=
  s.passDrawn .dot w true (orderPoint w) (orderPoint w)

/-- R7: the end point of a STEP. -/
def State.stepEnd (s : State) (w : Word) : Point := s.beam.position.displaced (stepDx w) (stepDy w)

/-- R7: the passage of a STEP, which may be a boundary whether its beam is on or off (R115). -/
def State.passStep (s : State) (w : Word) : State :=
  (s.passDrawn .step w (stepBeamOn w) s.beam.position (s.stepEnd w)).countBoundary s.beam.segment
    s.beam.position (s.stepEnd w)

/-- R8: the passage of a GLYPH. -/
def State.passGlyph (s : State) (w : Word) : State :=
  s.passDrawn .glyph w true s.beam.position (s.beam.position.displaced (glyphPitch w) 0)

/-- R9: the passage of a SEG; its entry records the segment it names and element 0. -/
def State.passSeg (s : State) (w : Word) : State :=
  let sent := s.sendHeld w (plainEntry .seg ⟨segField w, .ordinal 0⟩ s.beam.position)
  { sent with beam := { sent.beam with segment := segField w, element := 0 } }

/-- R10: the passage of a PASS. -/
def State.passPass (s : State) (w : Word) : State :=
  s.sendHeld w (plainEntry .pass ⟨s.beam.segment, .ordinal s.beam.element⟩ s.beam.position)

/-- R10: the passage of a word of a reserved kind: a PASS that raises BAD ORDER. -/
def State.passReserved (s : State) (w : Word) : State := (s.passPass w).raiseFault .badOrder w

/-- R31: a pending image replaces the current one. -/
def SegEntry.applied (e : SegEntry) : SegEntry :=
  { current := e.staged.getD e.current, staged := none }

/-- R120, R138: a block takes the frame passage. -/
def State.blockPassage (s : State) : PassageBlock → State
  | .regionTest p => s.regionFramePassage p
  | .menuUnit => s.menuFramePassage

/-- R31, R46: the Segment Table and Eligibility and Rewrite take the frame passage. -/
def State.tablesPassage (s : State) : State :=
  { s with
    segments := Table.mapAll SegEntry.blank SegEntry.applied s.segments
    rewrite := s.rewrite.blinkStep }

/-- R11: the passage of a FRAME, the frame passage. The Region Unit and the Menu Unit take it in the order
given (log 4). -/
def State.passFrame (s : State) (order : List PassageBlock) (w : Word) : State :=
  let sent := s.sendHeld w (plainEntry .frame ⟨0, .ordinal 0⟩ ⟨0, 0⟩)
  let began := { sent with beam := { sent.beam with position := ⟨0, 0⟩, segment := 0, element := 0 } }
  (passageOrder order).foldl State.blockPassage began.tablesPassage

/-- R4: the entry of a cross dot. -/
def CrossDot.entry (d : CrossDot) : Entry :=
  { origin := .cross d.pen d.arm d.index, kind := .dot, key := ⟨0, .ordinal 0⟩, endPt := d.point,
    mask := noPens, struck := noPens }

/-- R4: the passage of a cross dot. -/
def State.passCrossDot (s : State) : State :=
  match s.injection with
  | [] => s
  | d :: rest =>
    if s.flightHasRoom then
      { s with
        injection := rest
        link := { s.link with downstream := some (crossDotWord d.point) }
        beam := { s.beam with position := d.point, flight := s.beam.flight ++ [d.entry] } }
    else s

/-- MOVE (R6). -/
def execMove (s : State) : Host.Outcome State Fault Refusal := .next (s.passHeld .move s.passMove)

/-- LINE (R6). -/
def execLine (s : State) : Host.Outcome State Fault Refusal := .next (s.passHeld .line s.passLine)

/-- DOT (R6). -/
def execDot (s : State) : Host.Outcome State Fault Refusal := .next (s.passHeld .dot s.passDot)

/-- STEP (R7). -/
def execStep (s : State) : Host.Outcome State Fault Refusal := .next (s.passHeld .step s.passStep)

/-- GLYPH (R8). -/
def execGlyph (s : State) : Host.Outcome State Fault Refusal := .next (s.passHeld .glyph s.passGlyph)

/-- SEG (R9). -/
def execSeg (s : State) : Host.Outcome State Fault Refusal := .next (s.passHeld .seg s.passSeg)

/-- FRAME (R11): it waits until the last cross dot has passed (R3). -/
def execFrame (order : List PassageBlock) (s : State) : Host.Outcome State Fault Refusal :=
  if s.injection = [] then .next (s.passHeld .frame (s.passFrame order)) else .next s

/-- PASS (R10). -/
def execPass (s : State) : Host.Outcome State Fault Refusal := .next (s.passHeld .pass s.passPass)

/-- RESERVED_ORDER (R10). -/
def execReservedOrder (s : State) : Host.Outcome State Fault Refusal :=
  .next (s.passHeld .reserved s.passReserved)

/-- CROSS_DOT (R4). -/
def execCrossDot (s : State) : Host.Outcome State Fault Refusal := .next s.passCrossDot

end Sys2Proof.Machine
end

