-- ==== Sys2Proof/Machine/Dispatch.lean ====
section
/-! DEFINITION. One arm per command: its meaning. -/

namespace Sys2Proof.Machine

def exec (i : Instr) (s : State) : Host.Outcome State Fault Refusal :=
  match i with
  | .powerOn => Sys2Proof.Machine.execPowerOn s
  | .linkReset => Sys2Proof.Machine.execLinkReset s
  | .wordArrival w => Sys2Proof.Machine.execWordArrival w s
  | .move => Sys2Proof.Machine.execMove s
  | .line => Sys2Proof.Machine.execLine s
  | .dot => Sys2Proof.Machine.execDot s
  | .step => Sys2Proof.Machine.execStep s
  | .glyph => Sys2Proof.Machine.execGlyph s
  | .seg => Sys2Proof.Machine.execSeg s
  | .frame order => Sys2Proof.Machine.execFrame order s
  | .pass => Sys2Proof.Machine.execPass s
  | .reservedOrder => Sys2Proof.Machine.execReservedOrder s
  | .crossDot => Sys2Proof.Machine.execCrossDot s
  | .retire order => Sys2Proof.Machine.execRetire order s
  | .strike p => Sys2Proof.Machine.execStrike p s
  | .tipDown p => Sys2Proof.Machine.execTipDown p s
  | .tipUp p => Sys2Proof.Machine.execTipUp p s
  | .noticeAccept => Sys2Proof.Machine.execNoticeAccept s
  | .penGrant p => Sys2Proof.Machine.execPenGrant p s
  | .decoderGrant => Sys2Proof.Machine.execDecoderGrant s
  | .trackClaimGrant p => Sys2Proof.Machine.execTrackClaimGrant p s
  | .positionClaimGrant p => Sys2Proof.Machine.execPositionClaimGrant p s
  | .idleReturnGrant => Sys2Proof.Machine.execIdleReturnGrant s
  | .frameTimerExpiry order => Sys2Proof.Machine.execFrameTimerExpiry order s
  | .internalReset order => Sys2Proof.Machine.execInternalReset order s
  | .segCursor arg => Sys2Proof.Machine.execSegCursor arg s
  | .segLoad arg images => Sys2Proof.Machine.execSegLoad arg images s
  | .segLoadNow arg images => Sys2Proof.Machine.execSegLoadNow arg images s
  | .segShow arg run => Sys2Proof.Machine.execSegShow arg run s
  | .regionLoad arg record => Sys2Proof.Machine.execRegionLoad arg record s
  | .pageLoad arg items => Sys2Proof.Machine.execPageLoad arg items s
  | .menuRoot arg => Sys2Proof.Machine.execMenuRoot arg s
  | .menuClose arg => Sys2Proof.Machine.execMenuClose arg s
  | .menuUnlock arg => Sys2Proof.Machine.execMenuUnlock arg s
  | .menuIdle arg => Sys2Proof.Machine.execMenuIdle arg s
  | .forceItem arg => Sys2Proof.Machine.execForceItem arg s
  | .penMode arg record => Sys2Proof.Machine.execPenMode arg record s
  | .penFence arg word1 word2 => Sys2Proof.Machine.execPenFence arg word1 word2 s
  | .penClearExclusions arg => Sys2Proof.Machine.execPenClearExclusions arg s
  | .trackSet arg point => Sys2Proof.Machine.execTrackSet arg point s
  | .trackOff arg => Sys2Proof.Machine.execTrackOff arg s
  | .blinkRate arg => Sys2Proof.Machine.execBlinkRate arg s
  | .channelPresent arg => Sys2Proof.Machine.execChannelPresent arg s
  | .channelLevel arg => Sys2Proof.Machine.execChannelLevel arg s
  | .routeMode arg => Sys2Proof.Machine.execRouteMode arg s
  | .keepTables arg => Sys2Proof.Machine.execKeepTables arg s
  | .resetPart arg => Sys2Proof.Machine.execResetPart arg s
  | .frameTimeout arg => Sys2Proof.Machine.execFrameTimeout arg s
  | .querySegment channel params => Sys2Proof.Machine.execQuerySegment channel params s
  | .queryRegion channel params => Sys2Proof.Machine.execQueryRegion channel params s
  | .queryPage channel params => Sys2Proof.Machine.execQueryPage channel params s
  | .queryItem channel params => Sys2Proof.Machine.execQueryItem channel params s
  | .queryStack channel params => Sys2Proof.Machine.execQueryStack channel params s
  | .queryPen channel params => Sys2Proof.Machine.execQueryPen channel params s
  | .queryTrack channel params => Sys2Proof.Machine.execQueryTrack channel params s
  | .queryChannels channel params => Sys2Proof.Machine.execQueryChannels channel params s
  | .queryFaults channel params => Sys2Proof.Machine.execQueryFaults channel params s
  | .queryPart channel params => Sys2Proof.Machine.execQueryPart channel params s

end Sys2Proof.Machine
end

