-- ==== Sys2Proof/Safety.lean ====
section
/-! DEFINITION. What a safe run is, and the laws that the rules of spec/ call laws, each as a property of one
state. -/

namespace Sys2Proof.Machine

/-- A step is safe when it ends in a next state. -/
def StepIsSafe (s : State) : Prop := ∃ t, step s = .next t

/-! ### Positions and flight (R5, R9, R12, R13, R39, R94, R95) -/

/-- 4.2: each coordinate lies within 0..4095. -/
def Point.Law (p : Point) : Prop := p.x ≤ 4095 ∧ p.y ≤ 4095

/-- R39: the orders that eligibility is decided for. -/
def Entry.Pickable (e : Entry) : Prop :=
  e.origin = .stream ∧ (e.kind = .line ∨ e.kind = .step ∨ e.kind = .dot ∨ e.kind = .glyph)

/-- R12, R39: an entry's fields lie in their ranges, and its mask is empty unless the order can be picked. -/
def Entry.Law (e : Entry) : Prop :=
  e.endPt.Law ∧ e.key.segment ≤ 1023 ∧ (∀ n, e.key.element = .ordinal n → n ≤ 4095) ∧
    (¬ e.Pickable → e.mask = ⟨false, false⟩)

/-- R5, R9, R13: the beam state lies in its ranges, and the Flight List holds at most 8 entries. -/
def State.FlightLaw (s : State) : Prop :=
  s.beam.position.Law ∧ s.beam.segment ≤ 1023 ∧ s.beam.element ≤ 4095 ∧ s.beam.flight.length ≤ 8 ∧
    (∀ e ∈ s.beam.flight, e.Law) ∧ (∀ e ∈ s.beam.afterglow, e.Law) ∧ ∀ d ∈ s.injection, d.point.Law

/-- R88: the point that a held outcome carries. -/
def HeldOutcome.point : HeldOutcome → Point
  | .winner _ strike _ => strike
  | .region _ point _ => point

/-- R74, R88: the points that a pen engine holds. -/
def PenEngine.PointLaw (e : PenEngine) : Prop :=
  (∀ c ∈ e.candidates, c.strike.Law) ∧ ∀ o, e.attempt = .holding o → o.point.Law

/-- R94: the ranges of a tracker record. -/
def Tracker.Law (t : Tracker) : Prop :=
  t.position.Law ∧ t.lastReported.Law ∧ 2 ≤ t.pitch ∧ t.pitch ≤ 64 ∧ 1 ≤ t.coastLimit ∧ t.coastLimit ≤ 15 ∧
    (t.state = .coasting → 1 ≤ t.missCount ∧ t.missCount < t.coastLimit) ∧
    (t.state ≠ .coasting → t.missCount = 0)

/-- R106, R107: the points that a tracker's waiting claims carry. -/
def Tracker.ClaimLaw (t : Tracker) : Prop :=
  (∀ c ∈ t.trackClaim, c.point.Law) ∧ ∀ c ∈ t.positionClaim, c.point.Law

/-- R90, R106, R107, R121: the point that a notice carries. -/
def NoticeBody.PointLaw : NoticeBody → Prop
  | .pick _ _ strike _ _ _ => strike.Law
  | .region _ point _ => point.Law
  | .position c => c.point.Law
  | .track c => c.point.Law
  | .menu _ _ _ _ _ _ _ _ _ => True
  | .miss _ _ _ _ => True
  | .idleReturn _ _ _ => True
  | .fault _ _ _ _ _ => True
  | .reply _ => True

/-- R94, R106, R107, R117: every tracker record, every point that is carried to one, and every point that waits in
a claim or a notice lies in its ranges. -/
def State.TrackerLaw (s : State) : Prop :=
  s.FlightLaw ∧
    (∀ p, (s.tracker p).Law ∧ (s.tracker p).ClaimLaw ∧ (s.pen p).PointLaw ∧ (s.regionTest p).latched.Law) ∧
    ∀ n ∈ s.notices.queue, n.body.PointLaw

/-! ### Pens (R52, R69, R71, R74, R85, R117, R118, R131) -/

/-- R52: the ranges of a mode record. -/
def ModeRecord.Law (r : ModeRecord) : Prop :=
  1 ≤ r.w ∧ r.w ≤ 8 ∧ 1 ≤ r.c ∧ r.c ≤ r.w ∧ 1 ≤ r.span ∧ r.span ≤ 63 ∧ r.channel ≤ 3

/-- R71, R74, R75, R85: the lists and counters of a pen engine. -/
def PenEngine.Law (e : PenEngine) : Prop :=
  e.record.Law ∧ e.candidates.length ≤ 12 ∧ (e.candidates.map Candidate.key).Nodup ∧
    e.exclusions.length ≤ 4 ∧ e.exclusions.Nodup ∧ (e.record.cycle = false → e.exclusions = []) ∧
    (e.attempt ≠ .gathering → e.candidates = []) ∧ e.firstSeen ≤ 4095 ∧ e.frameCount ≤ 63 ∧
    (e.attempt = .gathering → e.frameCount < e.record.span)

/-- Both pen engines keep the laws of their lists. -/
def State.ListLaw (s : State) : Prop := ∀ p, (s.pen p).Law

/-- R69: a pen whose mode is OFF has attempt state OFF, tracker OFF, empty lists and no echo segment. A pen
whose mode is another one does not have attempt state OFF. -/
def State.OffPenLaw (s : State) (p : Pen) : Prop :=
  ((s.pen p).record.mode = .off → (s.pen p).attempt = .off ∧ (s.tracker p).state = .off ∧
      (s.pen p).candidates = [] ∧ (s.pen p).exclusions = [] ∧ s.rewrite.echo.get p = none) ∧
    ((s.pen p).attempt = .off → (s.pen p).record.mode = .off)

/-- R117, R118: the test phase follows the attempt state, and a region attempt rests on a LOCKED tracker. -/
def State.RegionAttemptLaw (s : State) (p : Pen) : Prop :=
  ((s.regionTest p).phase = .waiting ↔ (s.pen p).attempt = .regionWait) ∧
    ((s.regionTest p).phase = .counting ↔ (s.pen p).attempt = .regionCount) ∧
    ((s.pen p).attempt = .regionWait ∨ (s.pen p).attempt = .regionCount → (s.tracker p).state = .locked)

/-- R131: the menu lock has no owner whenever the stack holds fewer than 2 pages, and never names a pen whose
mode is OFF. -/
def State.LockLaw (s : State) : Prop :=
  (s.menu.stack.length < 2 → s.menu.owner = none) ∧
    ∀ p, s.menu.owner = some p → (s.pen p).record.mode ≠ .off

/-- R69, R117, R131 together. -/
def State.PenLaw (s : State) : Prop :=
  (∀ p, s.OffPenLaw p ∧ s.RegionAttemptLaw p) ∧ s.LockLaw

/-! ### Regions and menus (R119, R127, R129) -/

/-- R119: every winding counter lies within -15..+15. -/
def State.WindingLaw (s : State) : Prop :=
  ∀ p r, -15 ≤ (s.regionTest p).counter r ∧ (s.regionTest p).counter r ≤ 15

/-- R129: the Page Stack holds at most 6 pages, no page twice. -/
def State.StackLaw (s : State) : Prop :=
  s.menu.stack.length ≤ 6 ∧ s.menu.stack.Nodup ∧ ∀ n ∈ s.menu.stack, n ≤ 31

/-- R127: a page record has 1 to 12 items when valid, and none when invalid. -/
def PageRecord.Law (r : PageRecord) : Prop :=
  (r.valid = true → 1 ≤ r.items.length ∧ r.items.length ≤ 12) ∧ (r.valid = false → r.items = [])

/-- R127, R129: the Page Table and the Page Stack. An item's target page lies within 0..31. -/
def State.MenuLaw (s : State) : Prop :=
  s.StackLaw ∧ ∀ n, (s.menu.page n).Law ∧
    ∀ i ∈ (s.menu.page n).items, i.channel ≤ 3 ∧ ∀ t, i.action = .descend t → t ≤ 31

/-! ### Notices (R144, R146, R154) -/

/-- R144: at most 32 notices, at most 30 of them not FAULT notices, and at most one POSITION notice of each pen;
words are accepted of the head alone, and never all of them. -/
def State.QueueLaw (s : State) : Prop :=
  s.notices.queue.length ≤ 32 ∧ s.notices.queue.countP (fun n => !n.isFault) ≤ 30 ∧
    (∀ p, s.notices.queue.countP (Notice.isPositionOf p) ≤ 1) ∧
    (∀ n ∈ s.notices.queue.head?, n.accepted < n.length) ∧ ∀ n ∈ s.notices.queue.tail, n.accepted = 0

/-- R154: the LRU order holds each of the four channels once. -/
def State.LruLaw (s : State) : Prop := s.notices.lru.Perm [0, 1, 2, 3]

/-! ### Tables (log 16) -/

/-- Every table is in its canonical form. -/
def State.TableLaw (s : State) : Prop :=
  Table.wf SegEntry.blank s.segments = true ∧ Table.wf RegionRecord.blank s.regions.records = true ∧
    Table.wf PageRecord.blank s.menu.pages = true ∧ Table.wf 0 s.notices.levels = true ∧
    ∀ p, Table.wf 0 (s.regionTest p).counters = true ∧ Table.wf false (s.regionTest p).saturated = true

/-! ### The upstream input and the Control Decoder (R1, R2, R95, R158, R161, R163, R167) -/

/-- R1, R158, R163, R167: what each Decoder state says of the order that it keeps. -/
def State.DecoderLaw (s : State) : Prop :=
  (∀ ctrl got, s.decoder.state = .collecting ctrl got →
      s.link.held = none ∧ wordKind ctrl = .ctrl ∧ got.length < ctrlCount ctrl) ∧
    (∀ ctrl, s.decoder.state = .held ctrl → s.link.held = none ∧ wordKind ctrl = .ctrl ∧
      (orderOfCode (ctrlCode ctrl) = some .query ∨ orderOfCode (ctrlCode ctrl) = some .forceItem)) ∧
    (s.decoder.state = .drain → s.link.held = none ∧ s.beam.flight ≠ []) ∧
    (s.injection ≠ [] → ∃ w, s.link.held = some w ∧ wordKind w = .frame) ∧
    1 ≤ s.decoder.cursor ∧ s.decoder.cursor ≤ 1023 ∧ (s.decoder.endFlag = true → s.decoder.cursor = 1023)

/-! ### The Supervisor (R169, R174) -/

/-- R169, R174: a timer that runs has time left, within the timeout; with the setting 0 it is OFF or STALLED; a
first fault is held exactly while the sticky set has a kind, and NOTICE-LOST only with one. -/
def State.SupervisorLaw (s : State) : Prop :=
  s.supervisor.setting ≤ 255 ∧
    (∀ ms, s.supervisor.timer = .running ms → 1 ≤ ms ∧ ms ≤ 10 * s.supervisor.setting) ∧
    (s.supervisor.timer = .off → s.supervisor.setting = 0) ∧
    (s.supervisor.first = none ↔ s.supervisor.sticky = 0#6) ∧
    (s.supervisor.lost = true → s.supervisor.first ≠ none)

end Sys2Proof.Machine
end

