-- ==== Sys2Proof/Certificates/Slice0/Obligations.lean ====
section
/-! DEFINITION. The statements for the provers, with the few definitions that they share. A state that a
statement gives is written out with `with`, so it also says what the command leaves unchanged. -/

open Sys2Proof Sys2Proof.Machine

namespace Sys2Proof.Stated

/-- R1, R158: upstream ready is high, and the next word starts an order. -/
def Listens (s : State) : Prop := s.link.held = none ∧ s.decoder.state = .idle

/-- R3: the held word is `w`, of kind `k`, and the Flight List has room. -/
def Waits (s : State) (k : WordKind) (w : Word) : Prop :=
  s.link.held = some w ∧ wordKind w = k ∧ s.beam.flight.length < 8

/-- R115: no pen's test is COUNTING. -/
def NoTestCounts (s : State) : Prop := ∀ p, (s.regionTest p).phase ≠ .counting

/-- R52, R72, R73: a pen engine with the reset values. -/
def resetPen (tip : Tip) (last : LastOutcome) : PenEngine :=
  { record := { mode := .off, cycle := false, mark := false, echo := false, dragEnds := false, w := 3, c := 2,
                span := 20, channel := 0, classes := 0xFFFF#16, fence := .none }
    tip := tip, attempt := .off, candidates := [], exclusions := [], firstSeen := 0, frameCount := 0,
    crowded := false, lastOutcome := last }

/-- R112: a tracker with the reset values. -/
def resetTracker : Tracker :=
  { state := .off, position := ⟨2048, 2048⟩, pitch := 8, coastLimit := 4, missCount := 0, settle := false,
    origin := .host, stale := false, tally := ⟨0, 0, 0, 0⟩, lastReported := ⟨2048, 2048⟩, trackClaim := none,
    positionClaim := none }

/-- R126: a test record with the reset values. -/
def resetTest : RegionTest := { phase := .idle, latched := ⟨0, 0⟩, counters := [], saturated := [] }

/-- R19, R35, R51, R73, R112, R126, R143, R157, R168, R176: the part after power-on. The tables list nothing,
so each record reads as its reset value. -/
def powerOn : State :=
  { link := { held := none, downstream := none }
    beam := { position := ⟨0, 0⟩, segment := 0, element := 0, flight := [], afterglow := none }
    segments := []
    rewrite := { halfPeriod := 4, phaseOn := true, counter := 0, echo := ⟨none, none⟩ }
    pens := ⟨resetPen .up .none, resetPen .up .none⟩
    trackers := ⟨resetTracker, resetTracker⟩
    injection := []
    regions := { records := [], tests := ⟨resetTest, resetTest⟩ }
    menu := { pages := [], stack := [], owner := none, idleCounter := 0, idleLimit := 0, claim := none }
    notices := { queue := [], present := 1#4, levels := [], lru := [0, 1, 2, 3], tieFirst := false, all := false,
                 lastPen := .b }
    decoder := { state := .idle, cursor := 1, endFlag := false, keep := false }
    supervisor := { setting := 0, timer := .off, sticky := 0#6, first := none, lost := false }
    pending := []
    draws := 0 }

/-- An entry of origin STREAM with an empty mask (R12, R39). -/
def darkEntry (kind : EntryKind) (key : Key) (endPt : Point) : Entry :=
  { origin := .stream, kind := kind, key := key, endPt := endPt, mask := ⟨false, false⟩, struck := ⟨false, false⟩ }

/-- R3, R13: the word `sent` has passed and `entry` has joined the tail. -/
def afterPassage (s : State) (sent : Word) (entry : Entry) (position : Point) (segment element : Nat) : State :=
  { s with
    link := { held := none, downstream := some sent }
    beam := { s.beam with position := position, segment := segment, element := element
                          flight := s.beam.flight ++ [entry] } }

/-- R12: the element field of a drawing order's key. -/
def drawnElement (s : State) : Element :=
  if (s.image s.beam.segment).kind ≠ .unused ∧ (s.image s.beam.segment).grain = .segment then .whole
  else .ordinal s.beam.element

/-- R6 to R9, R12, R38: the state after the passage of a LINE, STEP, DOT or GLYPH from `p0` to `p1`, but for the
counting of a boundary. `lit` is false for a beam-off STEP. The intensity and the mask are those of R40 and R42. -/
def afterDrawn (s : State) (kind : EntryKind) (w : Word) (lit : Bool) (p0 p1 : Point) : State :=
  let seg := s.beam.segment
  let i := s.sentIntensity seg (field w 24 3)
  afterPassage s (withIntensity w i)
    { origin := .stream, kind := kind, key := ⟨seg, drawnElement s⟩, endPt := p1
      mask := ⟨s.eligible .a seg lit p0 p1 i, s.eligible .b seg lit p0 p1 i⟩, struck := ⟨false, false⟩ }
    p1 seg (min (s.beam.element + 1) 4095)

/-- R7: the end point of a STEP. -/
def stepEnd (s : State) (w : Word) : Point :=
  ⟨(max 0 (min 4095 ((s.beam.position.x : Int) + (w.extractLsb' 11 11).toInt))).toNat,
   (max 0 (min 4095 ((s.beam.position.y : Int) + (w.extractLsb' 0 11).toInt))).toNat⟩

/-- R8: the end point of a GLYPH. -/
def glyphEnd (s : State) (w : Word) : Point :=
  let pitch := if field w 8 2 = 0 then 12 else if field w 8 2 = 1 then 18 else if field w 8 2 = 2 then 24 else 36
  ⟨min 4095 (s.beam.position.x + pitch), min 4095 s.beam.position.y⟩

/-- R177: the coordinate fields of a MOVE, LINE or DOT. -/
def wordPoint (w : Word) : Point := ⟨field w 12 12, field w 0 12⟩

/-- R116: the edge from `p0` to `p1` crosses the ray from `p`: its abscissa at the level of `p`, by exact
arithmetic, is strictly greater than that of `p`. -/
def Crosses (p p0 p1 : Point) : Prop :=
  (p.x : ℚ) < (p0.x : ℚ) + ((p.y : ℚ) - p0.y) * ((p1.x : ℚ) - p0.x) / ((p1.y : ℚ) - p0.y)

open Classical in
/-- R116: the contribution of an edge. -/
noncomputable def crossing (p p0 p1 : Point) (reverse : Bool) : Int :=
  let c := if p0.y ≤ p.y ∧ p.y < p1.y ∧ Crosses p p0 p1 then 1
    else if p1.y ≤ p.y ∧ p.y < p0.y ∧ Crosses p p0 p1 then -1 else 0
  if reverse then -c else c

/-- R16: the kinds that a strike is attributed to. -/
def DrawingKind (e : Entry) : Prop :=
  e.kind = .move ∨ e.kind = .line ∨ e.kind = .step ∨ e.kind = .dot ∨ e.kind = .glyph

/-- R41: item `k` of page `n` exists. -/
def ItemExists (s : State) (n k : Nat) : Prop := (s.menu.page n).valid = true ∧ k < (s.menu.page n).items.length

/-- R41: a button of item `k` of page `n` is shown on top, and below the top. -/
def ShownOnTop (s : State) (n k : Nat) : Prop := s.menu.stack.getLast? = some n ∧ ItemExists s n k
def ShownBelow (s : State) (n k : Nat) : Prop :=
  n ∈ s.menu.stack ∧ s.menu.stack.getLast? ≠ some n ∧ ItemExists s n k

/-- R146: `n` is the head of the queue, and the next accept takes its last word. -/
def LastWordDue (s : State) (n : Notice) (rest : List Notice) : Prop :=
  s.notices.queue = n :: rest ∧ n.length ≤ n.accepted + 1

/-- R149: no claim of any block waits. -/
def NoClaims (s : State) : Prop :=
  (∀ c, s.decoder.state ≠ .held c) ∧ (∀ p o, (s.pen p).attempt ≠ .holding o) ∧
    (∀ p, (s.tracker p).trackClaim = none ∧ (s.tracker p).positionClaim = none) ∧ s.menu.claim = none

/-- R145: room for a notice that is not a FAULT notice, where no claim waits. -/
def Room (s : State) : Prop := s.notices.queue.length < 30 ∧ NoClaims s

/-- R60, R98: pen p and tracker p do nothing at a frame close but to clear an echo. -/
def Quiet (s : State) (p : Pen) : Prop :=
  (s.pen p).attempt ≠ .gathering ∧
    ((s.pen p).record.mode = .continuous → ∀ k b, (s.pen p).attempt ≠ .settled k b) ∧ (s.tracker p).state = .off

/-- R169: the frame timer after a frame close. -/
def timerAfterClose (v : Supervisor) : TimerState :=
  if v.timer = .off then .off else if v.setting = 0 then .off else .running (10 * v.setting)

/-- R180: the set of one channel. -/
def channelSet (c : Nat) : BitVec 4 := BitVec.ofNat 4 (2 ^ c)

/-- R149, R150: the claim waits, and is not passed over while a POSITION notice of its pen stands in the queue. -/
def Waiting (s : State) : Claimant → Prop
  | .decoder => ∃ ctrl, s.decoder.state = .held ctrl
  | .penEngine p => ∃ o, (s.pen p).attempt = .holding o
  | .track p => (s.tracker p).trackClaim ≠ none
  | .position p => (s.tracker p).positionClaim ≠ none ∧
      ∀ n ∈ s.notices.queue, ∀ c, n.body = .position c → n.pen ≠ some p
  | .idleReturn => s.menu.claim ≠ none

/-- R150, R151: the order in which waiting claims are served. -/
def servedOrder (s : State) : List Claimant :=
  [.decoder, .penEngine (if s.notices.lastPen = .a then .b else .a), .penEngine s.notices.lastPen, .track .a,
   .position .a, .track .b, .position .b, .idleReturn]

/-- R145, R150: room exists, and claim `c` is the first in the order that waits. -/
def ServedNext (s : State) (c : Claimant) : Prop :=
  s.notices.queue.length < 30 ∧ Waiting s c ∧
    ∃ before after, servedOrder s = before ++ c :: after ∧ ∀ b ∈ before, ¬ Waiting s b

/-- R146: the state in which the accept of the head's last word has freed its entry; `rest` are the other notices. -/
def freed (s : State) (rest : List Notice) : State := { s with notices := { s.notices with queue := rest } }

/-- R150: the claims of the list are granted in turn, each the next to be served, until none is; `t` is the end. -/
def GrantsOf : List Claimant → State → State → Prop
  | [], s, t => t = s ∧ ∀ c, ¬ ServedNext s c
  | c :: rest, s, t => ServedNext s c ∧ GrantsOf rest (s.grant c) t

/-- R150: `t` is `s` after the grants that are made in it, one at a time as long as room lasts. -/
def GrantsFollow (s t : State) : Prop := ∃ cs, GrantsOf cs s t

/-- R150: the first grant that the next accept makes is that of claim `c`; `f` is the state with the entry freed. -/
def GrantDue (s : State) (c : Claimant) (f : State) : Prop :=
  ∃ n rest, LastWordDue s n rest ∧ f = freed s rest ∧ ServedNext f c

/-- 6.4: how many of the four dots of an arm a tally's set holds. -/
def struckDots (set : BitVec 4) : Nat := ((List.range 4).filter fun i => set.getLsbD i).length

/-- R153: the route of a notice of pen p whose own route is `route`; an empty one is the pen's default channel. -/
def routeOf (s : State) (p : Pen) (route : BitVec 4) : BitVec 4 :=
  if route = 0#4 then channelSet (s.pen p).record.channel else route

/-- R63: the state that pen engine p enters after a delivery. -/
def afterDelivery (e : PenEngine) (key : Option Key) : AttemptState :=
  if e.record.mode = .continuous then .settled key false
  else if e.tip = .down then .settled none false else .ready

/-- R29, R92: the images of every segment after a delivery on segment `seg`, which is marked when MARK is on. -/
def MarkedAs (s : State) (p : Pen) (seg : Nat) (t : State) : Prop :=
  ∀ n, t.segEntry n =
    if (s.pen p).record.mark = true ∧ n = seg then
      { current := { (s.segEntry n).current with display := .highlight }
        staged := (s.segEntry n).staged.map fun img => { img with display := .highlight } }
    else s.segEntry n

/-- R63, R90, R104: `t` is `s` after pen p has delivered a winner as a PICK; `drag` is the drag field of its image. -/
def DeliversPick (s : State) (p : Pen) (key : Key) (strike : Point) (cycled drag : Bool) (t : State) : Prop :=
  t = { s with
    segments := t.segments
    notices := s.notices.enter (routeOf s p (s.image key.segment).route) (some p)
      (.pick key (s.image key.segment).cls strike cycled (s.pen p).record.mark drag)
    pens := s.pens.set p { s.pen p with attempt := afterDelivery (s.pen p) (some key), lastOutcome := .pick }
    trackers := if drag = true then s.trackers.set p { s.tracker p with
        state := .seeking, position := strike, missCount := 0, settle := false, stale := true, origin := .drag
        tally := ⟨0, 0, 0, 0⟩, lastReported := strike }
      else s.trackers } ∧
  MarkedAs s p key.segment t

/-- R63, R92, R135: `t` is `s` after pen p has delivered a winner as a menu pick of item `k` of page `n`. -/
def DeliversMenu (s : State) (p : Pen) (key : Key) (n k : Nat) (cycled : Bool) (t : State) : Prop :=
  let r := s.menu.pick p n k
  let route := match s.menu.item n k with
    | some item => channelSet item.channel
    | none => channelSet (s.pen p).record.channel
  t = { s with
    segments := t.segments
    menu := r.1
    notices := s.notices.enter route (some p)
      (.menu n k r.2.1 r.2.2 r.1.stack.length (r.1.stack.getLastD 0) cycled (s.pen p).record.mark false)
    pens := s.pens.set p { s.pen p with attempt := afterDelivery (s.pen p) (some key), lastOutcome := .menu } } ∧
  MarkedAs s p key.segment t

/-- R64, R65, R122: the state after an attempt of pen p has ended MISS; `e` is its engine at the end. -/
def afterMiss (s : State) (p : Pen) (e : PenEngine) (reason : MissReason) (next : AttemptState) : State :=
  { s with
    pens := s.pens.set p { e with attempt := next, candidates := [], exclusions := [], lastOutcome := .miss reason }
    rewrite := { s.rewrite with echo := s.rewrite.echo.set p none }
    regions := { s.regions with tests := s.regions.tests.set p { s.regionTest p with phase := .idle } }
    notices := if s.hasRoom then s.notices.enter (channelSet (s.pen p).record.channel) (some p)
        (.miss reason e.frameCount e.candidates.length e.crowded)
      else s.notices }

/-- R57, R58, R59: the state after pen engine p has taken a tip up. -/
def afterTipUp (s : State) (p : Pen) : State :=
  let e : PenEngine := { s.pen p with tip := .up }
  let kept : State := { s with pens := s.pens.set p e }
  let released : State := afterMiss s p e .released .ready
  match (s.pen p).attempt with
  | .gathering => if (s.pen p).record.mode = .press then released else kept
  | .regionWait => released
  | .regionCount => released
  | .settled _ _ =>
    if (s.pen p).record.mode = .press ∨ (s.pen p).record.mode = .region then
      { s with pens := s.pens.set p { e with attempt := .ready } }
    else kept
  | .off => kept
  | .ready => kept
  | .holding _ => kept

/-- R67, R101: the state after tracker p has told pen engine p that it left LOCKED. -/
def afterUnlock (s : State) (p : Pen) : State :=
  if (s.pen p).attempt = .regionWait ∨ (s.pen p).attempt = .regionCount then
    afterMiss s p (s.pen p) .track (.settled none false)
  else s

/-- R106: the state after a TRACK request of tracker p. -/
def afterTrackRequest (s : State) (p : Pen) (c : TrackClaim) : State :=
  if (s.tracker p).trackClaim = none ∧ s.hasRoom = true then
    { s with notices := s.notices.enter (channelSet (s.pen p).record.channel) (some p) (.track c) }
  else { s with trackers := s.trackers.set p { s.tracker p with trackClaim := some c } }

/-- R103: the record of a tracker that becomes OFF, but for its claims. -/
def turnedOff (u : Tracker) : Tracker :=
  { u with state := .off, missCount := 0, settle := false, stale := false, tally := ⟨0, 0, 0, 0⟩ }

/-- R85: the exclusion list after a key is added: no key twice, and the oldest of 4 keys makes place. -/
def withExclusion (keys : List Key) (key : Key) : List Key :=
  if key ∈ keys then keys else (if keys.length < 4 then keys else keys.drop 1) ++ [key]

/-- R16, R17: a strike of pen p goes to entry `e`, whose struck flag for p is clear; `hit` is `s` with the flag
set. The entry is the oldest of drawing kind in the Flight List, else the afterglow record. -/
def Strikes (s : State) (p : Pen) (e : Entry) (hit : State) : Prop :=
  e.struck.get p = false ∧
    ((∃ before after, (∀ x ∈ before, ¬ DrawingKind x) ∧ DrawingKind e ∧ s.beam.flight = before ++ e :: after ∧
        hit = { s with beam := { s.beam with
          flight := before ++ { e with struck := e.struck.set p true } :: after } }) ∨
      ((∀ x ∈ s.beam.flight, ¬ DrawingKind x) ∧ s.beam.afterglow = some e ∧
        hit = { s with beam := { s.beam with afterglow := some { e with struck := e.struck.set p true } } }))

/-- R173, R181: the context word of STALL. -/
def stallWord (s : State) : Word :=
  BitVec.ofNat 32 (s.beam.flight.length + (if s.link.held = none then 0 else 16) +
    32 * (match s.decoder.state with
      | .idle => 0
      | .collecting _ _ => 1
      | .held _ => 2
      | .drain => 3) + 256 * s.supervisor.setting)

/-- R179: the CTRL word of an order without data words, and of one with `n`. -/
def ctrl (code n : Nat) (arg : Arg) : Word := BitVec.ofNat 32 (0x80000000 + code * 2 ^ 20 + n * 2 ^ 16 + arg.toNat)

/-- R179: the CTRL word of a QUERY. -/
def queryCtrl (subject : Nat) (ch : BitVec 2) (ps : BitVec 10) : Word :=
  BitVec.ofNat 32 (0x87F00000 + subject * 2 ^ 12 + ch.toNat * 2 ^ 10 + ps.toNat)

/-- R179: the mode record that a PEN MODE carries; the fence is kept. -/
def modeRecord (fence : Fence) (arg : Arg) (w : Word) : ModeRecord :=
  { mode := if field arg 12 2 = 0 then .off else if field arg 12 2 = 1 then .press
      else if field arg 12 2 = 2 then .continuous else .region
    cycle := arg.getLsbD 11, mark := arg.getLsbD 10, echo := arg.getLsbD 9, dragEnds := arg.getLsbD 8
    w := field w 12 4, c := field w 8 4, span := field w 0 6, channel := field arg 0 2
    classes := w.extractLsb' 16 16, fence := fence }

/-- R179: pen A for bit 15 of an argument 0, pen B for 1. -/
def penOf (arg : Arg) : Pen := if arg.getLsbD 15 = true then .b else .a

/-- R164: the queries with their subject codes, and when each is refused. -/
def queries (ch : BitVec 2) (ps : BitVec 10) : List (Nat × Instr × Bool) :=
  [(0, .querySegment ch ps, decide (ps = 0#10)), (1, .queryRegion ch ps, decide (field ps 0 6 = 0)),
   (2, .queryPage ch ps, false), (3, .queryItem ch ps, decide (12 ≤ field ps 0 4)), (4, .queryStack ch ps, false),
   (5, .queryPen ch ps, false), (6, .queryTrack ch ps, false), (7, .queryChannels ch ps, false),
   (8, .queryFaults ch ps, false), (9, .queryPart ch ps, false)]

/-- R22, R27, R179: the segment image of a load's two words; none when it is out of range. -/
def imageOfWords (w : Word × Word) : Option Image :=
  let carried (kind : SegKind) : Image :=
    { kind := kind, detectable := w.1.getLsbD 29
      display := if field w.1 27 2 = 0 then .normal else if field w.1 27 2 = 1 then .highlight
        else if field w.1 27 2 = 2 then .blink else .blank
      cls := field w.1 23 4, priority := field w.1 20 3
      grain := if w.1.getLsbD 19 = true then .element else .segment, route := w.1.extractLsb' 0 4 }
  if field w.1 30 2 = 0 then
    some { kind := .unused, detectable := false, display := .normal, cls := 0, priority := 0, grain := .element
           route := 0#4 }
  else if field w.1 30 2 = 1 then
    some (carried (.drawing (w.2.getLsbD 7)
      (if field w.2 0 6 = 0 then none else some { region := field w.2 0 6, reverse := w.2.getLsbD 6 })))
  else if field w.1 30 2 = 2 ∧ field w.2 0 4 < 12 then some (carried (.menu (field w.2 4 5) (field w.2 0 4)))
  else none

/-- R127, R128, R179: the item of an item word; none when a field that its action carries, or its action, holds a
reserved code. -/
def itemOfWord (w : Word) : Option Item :=
  let after : Option AfterAction := if field w 27 2 = 0 then some .stay else if field w 27 2 = 1 then some .ascend
    else if field w 27 2 = 2 then some .root else none
  let action : Option Action := if field w 29 3 = 0 then some (.descend (field w 0 5))
    else if field w 29 3 = 1 then some .ascend
    else if field w 29 3 = 2 then after.map fun a => .command (field w 0 8) a
    else if field w 29 3 = 3 then after.map fun a => .toggle a
    else none
  action.map fun a => { action := a, toggle := w.getLsbD 26, channel := field w 24 2 }

/-- R159: the order has a known code, and the data count that its code expects. -/
def CountExpected (code : Nat) (arg : Arg) (n : Nat) : Prop :=
  code ∈ [0x02, 0x03] ∧ n ∈ [2, 4, 6, 8, 10, 12, 14] ∨
    code ∈ [0x04, 0x10, 0x30, 0x40] ∧ n = 1 ∨
    code = 0x31 ∧ n = 2 ∨
    code = 0x20 ∧ n = (if arg.getLsbD 10 = true then field arg 0 4 else 0) ∨
    code ∈ [0x01, 0x21, 0x22, 0x23, 0x24, 0x25, 0x32, 0x41, 0x50, 0x60, 0x61, 0x62, 0x70, 0x71, 0x72, 0x7F] ∧ n = 0

/-- R179: the data words of a load, two for each image. -/
def imagePairs : List Word → List (Word × Word)
  | w1 :: w2 :: rest => (w1, w2) :: imagePairs rest
  | _ => []

/-- R164, R179: the QUERY that an argument names; none for the subject codes 10 to 15. -/
def queryNamed (arg : Arg) : Option Instr :=
  ((queries (arg.extractLsb' 10 2) (arg.extractLsb' 0 10)).find? fun q => decide (q.1 = field arg 12 4)).map (·.2.1)

/-- R179: the control order that a code, an argument and data words name. -/
def orderNamed (code : Nat) (arg : Arg) (data : List Word) : Option Instr :=
  match data with
  | [] =>
    if code = 0x01 then some (.segCursor arg) else if code = 0x20 then some (.pageLoad arg [])
    else if code = 0x21 then some (.menuRoot arg) else if code = 0x22 then some (.menuClose arg)
    else if code = 0x23 then some (.menuUnlock arg) else if code = 0x24 then some (.menuIdle arg)
    else if code = 0x25 then some (.forceItem arg) else if code = 0x32 then some (.penClearExclusions arg)
    else if code = 0x41 then some (.trackOff arg) else if code = 0x50 then some (.blinkRate arg)
    else if code = 0x60 then some (.channelPresent arg) else if code = 0x61 then some (.channelLevel arg)
    else if code = 0x62 then some (.routeMode arg) else if code = 0x70 then some (.keepTables arg)
    else if code = 0x71 then some (.resetPart arg) else if code = 0x72 then some (.frameTimeout arg)
    else if code = 0x7F then queryNamed arg else none
  | w :: rest =>
    if code = 0x02 then some (.segLoad arg (imagePairs data)) else if code = 0x03 then some (.segLoadNow arg (imagePairs data))
    else if code = 0x04 then some (.segShow arg w) else if code = 0x10 then some (.regionLoad arg w)
    else if code = 0x20 then some (.pageLoad arg data) else if code = 0x30 then some (.penMode arg w)
    else if code = 0x31 then some (.penFence arg w (rest.headD 0)) else if code = 0x40 then some (.trackSet arg w)
    else none

/-- R158: the word `w` is the last word of an order, whose CTRL word is `ctrl` and whose data words are `data`; `t`
is the state with the Decoder IDLE. -/
def LastWordOf (s : State) (w ctrl : Word) (data : List Word) (t : State) : Prop :=
  s.link.held = none ∧ wordKind ctrl = .ctrl ∧
    (s.decoder.state = .idle ∧ ctrlCount w = 0 ∧ ctrl = w ∧ data = [] ∧ t = s ∨
      ∃ got, s.decoder.state = .collecting ctrl got ∧ got.length + 1 = ctrlCount ctrl ∧ data = got ++ [w] ∧
        t = { s with decoder := { s.decoder with state := .idle } })

/-- R61, R68: PEN MODE ends an attempt in this state MISS ABORTED. -/
def aborts : AttemptState → Bool
  | .gathering | .regionWait | .regionCount => true
  | .off | .ready | .holding _ | .settled _ _ => false

/-- R68: the state after PEN MODE has ended the attempt of pen p, with `e` as its engine but for the lists, the
echo and the outcome. -/
def afterMode (s : State) (p : Pen) (e : PenEngine) : State :=
  { s with
    pens := s.pens.set p { e with
      candidates := [], exclusions := []
      lastOutcome := match (s.pen p).attempt with
        | .gathering | .regionWait | .regionCount => .miss .aborted
        | .holding _ => .discarded
        | .off | .ready | .settled _ _ => (s.pen p).lastOutcome }
    rewrite := { s.rewrite with echo := s.rewrite.echo.set p none }
    regions := if aborts (s.pen p).attempt = true then
        { s.regions with tests := s.regions.tests.set p { s.regionTest p with phase := .idle } }
      else s.regions
    notices := if aborts (s.pen p).attempt = true ∧ s.hasRoom = true then
        s.notices.enter (channelSet (s.pen p).record.channel) (some p)
          (.miss .aborted (s.pen p).frameCount (s.pen p).candidates.length (s.pen p).crowded)
      else s.notices }

/-- R33, R71, R111, R125, R142, R156, R165, R175, R179: the REPLY that a QUERY of each subject builds from the
state. -/
def replyOf (s : State) (ps : BitVec 10) : Nat → Option Reply
  | 0 => some (.segment ps.toNat (s.segEntry ps.toNat).current
      ((s.segEntry ps.toNat).staged.map Image.display))
  | 1 =>
    let count (t : RegionTest) : RegionCount :=
      { phase := t.phase, counter := t.counter (field ps 0 6), saturated := t.isSaturated (field ps 0 6) }
    some (.region (field ps 0 6) (s.regions.record (field ps 0 6)) ⟨count (s.regionTest .a), count (s.regionTest .b)⟩)
  | 2 => some (.page (field ps 0 5) (s.menu.page (field ps 0 5)).valid (s.menu.page (field ps 0 5)).items)
  | 3 => some (.item (field ps 4 5) (field ps 0 4)
      (if (s.menu.page (field ps 4 5)).valid = true then (s.menu.page (field ps 4 5)).items[field ps 0 4]? else none))
  | 4 => some (.stack s.menu.stack s.menu.owner s.menu.idleCounter s.menu.idleLimit s.menu.claim.isSome)
  | 5 =>
    let p : Pen := if ps.getLsbD 0 = true then .b else .a
    let e := s.pen p
    some (.pen p { mode := e.record.mode, cycle := e.record.cycle, mark := e.record.mark, echo := e.record.echo,
                   dragEnds := e.record.dragEnds, attempt := e.attempt, tip := e.tip, frameCount := e.frameCount,
                   candidates := e.candidates.length, crowded := e.crowded, lastOutcome := e.lastOutcome,
                   exclusions := e.exclusions })
  | 6 =>
    let p : Pen := if ps.getLsbD 0 = true then .b else .a
    let t := s.tracker p
    some (.track p { state := t.state, position := t.position, pitch := t.pitch, coastLimit := t.coastLimit,
                     missCount := t.missCount, settle := t.settle, stale := t.stale, origin := t.origin,
                     lastReported := t.lastReported, trackClaim := t.trackClaim.map TrackClaim.event,
                     positionClaim := t.positionClaim.map PositionClaim.final })
  | 7 => some (.channels {
      present := s.notices.present ||| 1#4
      levels := [Table.read 0 s.notices.levels 0, Table.read 0 s.notices.levels 1, Table.read 0 s.notices.levels 2,
                 Table.read 0 s.notices.levels 3]
      lru := s.notices.lru, tieFirst := s.notices.tieFirst, all := s.notices.all
      notices := s.notices.queue.length, faults := s.notices.queue.countP Notice.isFault
      claims := { s.claims with decoder := true }, lastPen := s.notices.lastPen })
  | 8 => some (.faults s.supervisor.setting s.supervisor.first (decide (s.supervisor.timer = .stalled))
      s.supervisor.lost s.supervisor.sticky)
  | 9 => some (.part s.decoder.cursor s.decoder.endFlag s.decoder.keep)
  | _ => none

/-- R164, R175: the state after a query of a subject is answered on channel `ch`: its REPLY enters, routed to that
channel alone, and QUERY FAULTS clears the fault record. -/
def answered (s : State) (subject : Nat) (ch : BitVec 2) (reply : Reply) : State :=
  { s with
    notices := s.notices.enter (channelSet ch.toNat) none (.reply reply)
    supervisor := if subject = 8 then { s.supervisor with sticky := 0#6, first := none, lost := false }
      else s.supervisor }

/-! ### The words of a notice (R179 to R182)

A field of a word is given as its lowest bit, its length and its value. -/

abbrev Fields := List (Nat × Nat × Nat)

/-- Each value fits its field. -/
def Fit : Fields → Prop
  | [] => True
  | (_, len, v) :: rest => v < 2 ^ len ∧ Fit rest

/-- The number that has each value in its field and 0 elsewhere. -/
def total : Fields → Nat
  | [] => 0
  | (lo, _, v) :: rest => v * 2 ^ lo + total rest

/-- R182: the word holds the fields, where each value fits its field, and 0 in every other bit. -/
def Holds (w : Word) (fields : Fields) : Prop := Fit fields → w = BitVec.ofNat 32 (total fields)

/-- R181: a payload word that holds a point. -/
def pointFields (p : Point) : Fields := [(16, 12, p.x), (0, 12, p.y)]

def displayCode (d : Display) : Nat :=
  if d = .normal then 0 else if d = .highlight then 1 else if d = .blink then 2 else 3

def missCode (r : MissReason) : Nat :=
  if r = .span then 0 else if r = .released then 1 else if r = .outside then 2 else if r = .track then 3
  else if r = .aborted then 4 else 5

def resultCode (r : MenuResult) : Nat :=
  if r = .descended then 0 else if r = .ascended then 1 else if r = .noChange then 2 else if r = .command then 3
  else if r = .toggled then 4 else if r = .refusedLocked then 8 else if r = .refusedStale then 9
  else if r = .refusedFull then 10 else if r = .refusedLoop then 11 else 12

def kindCode (k : FaultKind) : Nat :=
  if k = .badOrder then 0 else if k = .badControl then 1 else if k = .badValue then 2 else if k = .badIndex then 3
  else if k = .spuriousRetire then 4 else 5

def outcomeCode : LastOutcome → Nat
  | .none => 0
  | .pick => 1
  | .region => 2
  | .menu => 3
  | .discarded => 4
  | .reset => 5
  | .miss reason => 8 + missCode reason

/-- R181: the state code of a pen that is OFF, or in PRESS, CONTINUOUS or REGION mode. -/
def stateCode (mode : Mode) (attempt : AttemptState) : Nat :=
  match mode, attempt with
  | .press, .ready => 1
  | .press, .gathering => 2
  | .press, .holding _ => 3
  | .press, .settled _ _ => 4
  | .continuous, .ready => 5
  | .continuous, .gathering => 6
  | .continuous, .holding _ => 7
  | .continuous, .settled _ _ => 8
  | .region, .ready => 9
  | .region, .regionWait => 10
  | .region, .regionCount => 11
  | .region, .holding _ => 12
  | .region, .settled _ _ => 13
  | _, _ => 0

def phaseCode (p : TestPhase) : Nat := if p = .idle then 0 else if p = .waiting then 1 else 2

def trackCode (t : TrackState) : Nat :=
  if t = .off then 0 else if t = .seeking then 1 else if t = .locked then 2 else 3

def originCode (o : TrackOrigin) : Nat := if o = .drag then 1 else 0

def penCode (p : Pen) : Nat := if p = .b then 1 else 0

/-- R179, R181: the two words of a segment image as loaded. -/
def imageFields (img : Image) : List Fields :=
  let kind := match img.kind with
    | .unused => 0
    | .drawing _ _ => 1
    | .menu _ _ => 2
  [[(30, 2, kind), (29, 1, img.detectable.toNat), (27, 2, displayCode img.display), (23, 4, img.cls),
    (20, 3, img.priority), (19, 1, if img.grain = .element then 1 else 0), (0, 4, img.route.toNat)],
   match img.kind with
    | .unused => []
    | .drawing drag none => [(7, 1, drag.toNat)]
    | .drawing drag (some b) => [(7, 1, drag.toNat), (6, 1, b.reverse.toNat), (0, 6, b.region)]
    | .menu page item => [(4, 5, page), (0, 4, item)]]

/-- R181: the phase, the saturation flag and the counter in two's complement of one pen, from bit `lo`. -/
def countFields (c : RegionCount) (lo : Nat) : Fields :=
  [(lo + 8, 2, phaseCode c.phase), (lo + 7, 1, c.saturated.toNat), (lo, 5, (c.counter % 32).toNat)]

def actionCode : Action → Nat
  | .descend _ => 0
  | .ascend => 1
  | .command _ _ => 2
  | .toggle _ => 3

/-- R179: the item word. -/
def itemFields (i : Item) : Fields :=
  let after (a : AfterAction) : Nat := if a = .stay then 0 else if a = .ascend then 1 else 2
  [(29, 3, actionCode i.action), (26, 1, i.toggle.toNat), (24, 2, i.channel)] ++
    match i.action with
    | .descend target => [(0, 5, target)]
    | .ascend => []
    | .command code a => [(27, 2, after a), (0, 8, code)]
    | .toggle a => [(27, 2, after a)]

/-- R181: 4 bits for each item of a PAGE reply, from bit 0. -/
def pageFields (items : List Item) : Fields :=
  (items.mapIdx fun j i => [(4 * j + 2, 1, i.toggle.toNat), (4 * j, 2, actionCode i.action)]).flatten

/-- R181: the reply subject. -/
def replySubject : Reply → Nat
  | .segment _ _ _ => 0
  | .region _ _ _ => 1
  | .page _ _ _ => 2
  | .item _ _ _ => 3
  | .stack _ _ _ _ _ => 4
  | .pen p _ => 5 + penCode p
  | .track p _ => 7 + penCode p
  | .channels _ => 9
  | .faults _ _ _ _ _ => 10
  | .part _ _ _ => 11

/-- R181: header bits 19:0 of a REPLY. -/
def replyFields : Reply → Fields
  | .segment n _ pending => [(11, 2, (pending.map displayCode).getD 0), (10, 1, pending.isSome.toNat), (0, 10, n)]
  | .region r _ _ => [(0, 6, r)]
  | .page n valid items => [(6, 4, items.length), (5, 1, valid.toNat), (0, 5, n)]
  | .item n k found => [(9, 1, found.isSome.toNat), (4, 5, n), (0, 4, k)]
  | .stack pages owner _ _ claim =>
    [(5, 1, claim.toNat), (3, 2, (owner.map fun p => 1 + penCode p).getD 0), (0, 3, pages.length)]
  | .pen _ e => [(14, 6, e.frameCount), (10, 4, outcomeCode e.lastOutcome), (9, 1, e.crowded.toNat),
      (8, 1, if e.tip = .down then 1 else 0), (7, 1, e.cycle.toNat), (6, 1, e.mark.toNat), (5, 1, e.echo.toNat),
      (4, 1, e.dragEnds.toNat), (0, 4, stateCode e.mode e.attempt)]
  | .track _ u => [(19, 1, originCode u.origin), (18, 1, u.stale.toNat), (17, 1, u.settle.toNat), (10, 7, u.pitch),
      (6, 4, u.coastLimit), (2, 4, u.missCount), (0, 2, trackCode u.state)]
  | .channels u => [(18, 1, u.all.toNat), (17, 1, u.tieFirst.toNat), (16, 1, penCode u.lastPen), (10, 6, u.faults),
      (4, 6, u.notices), (0, 4, u.present.toNat)]
  | .faults setting first stalled lost sticky => [(12, 8, setting), (11, 1, first.isSome.toNat),
      (8, 3, (first.map fun f => kindCode f.1).getD 0), (7, 1, stalled.toNat), (6, 1, lost.toNat),
      (0, 6, sticky.toNat)]
  | .part cursor endFlag keep => [(10, 10, cursor), (9, 1, endFlag.toNat), (8, 1, keep.toNat), (0, 8, 220)]

/-- R181: the payload words of a REPLY, but for the reply to QUERY PEN. -/
def replyPayload : Reply → List Fields
  | .segment _ img _ => imageFields img
  | .region _ r counts =>
    [[(9, 1, r.enabled.toNat), (8, 1, if r.rule = .nonzero then 1 else 0), (4, 4, r.priority), (0, 4, r.route.toNat)],
     countFields counts.b 16 ++ countFields counts.a 0]
  | .page _ _ items => [pageFields (items.take 8), pageFields (items.drop 8)]
  | .item _ _ none => [[]]
  | .item _ _ (some i) => [itemFields i]
  | .stack pages _ counter limit _ => [pages.mapIdx fun i n => (5 * i, 5, n), [(8, 8, counter), (0, 8, limit)]]
  | .pen _ _ => []
  | .track _ u => [pointFields u.position, pointFields u.lastReported,
      [(2, 2, (u.positionClaim.map fun final => 1 + final.toNat).getD 0),
       (0, 2, (u.trackClaim.map fun e => if e = .lost then 2 else 1).getD 0)]]
  | .channels u => [[(24, 1, u.claims.decoder.toNat), (25, 1, u.claims.pens.a.toNat), (26, 1, u.claims.pens.b.toNat),
      (27, 1, u.claims.tracks.a.toNat), (28, 1, u.claims.positions.a.toNat), (29, 1, u.claims.tracks.b.toNat),
      (30, 1, u.claims.positions.b.toNat), (31, 1, u.claims.idleReturn.toNat)] ++
      (u.lru.mapIdx fun i c => (16 + 2 * i, 2, c)) ++ u.levels.mapIdx fun c v => (4 * c, 4, v)]
  | .faults _ first _ _ _ => [(first.map fun f => [(0, 32, f.2.toNat)]).getD []]
  | .part _ _ _ => [[(26, 4, 8), (22, 4, 12), (16, 6, 32), (10, 6, 63), (0, 10, 1023)],
      [(13, 3, 4), (7, 6, 32), (4, 3, 4), (0, 4, 12)]]

/-- R181: the kind code of a notice. -/
def noticeCode : NoticeBody → Nat
  | .pick _ _ _ _ _ _ => 0
  | .region _ _ _ => 1
  | .menu _ _ _ _ _ _ _ _ _ => 2
  | .miss _ _ _ _ => 3
  | .position _ => 4
  | .track _ => 5
  | .idleReturn _ _ _ => 6
  | .fault _ _ _ _ _ => 7
  | .reply r => 8 + replySubject r % 8

/-- R181: header bits 20:0 of a notice. -/
def contentFields : NoticeBody → Fields
  | .pick key cls _ cycled marked drag =>
    [(20, 1, cycled.toNat), (19, 1, marked.toNat), (18, 1, drag.toNat), (10, 4, cls), (0, 10, key.segment)]
  | .region r _ saturated => [(20, 1, saturated.toNat), (0, 6, r)]
  | .menu page item result _ _ _ cycled marked forced => [(20, 1, cycled.toNat), (19, 1, marked.toNat),
      (18, 1, forced.toNat), (12, 4, resultCode result), (4, 5, page), (0, 4, item)]
  | .miss reason frames candidates crowded =>
    [(20, 1, crowded.toNat), (9, 4, candidates), (3, 6, frames), (0, 3, missCode reason)]
  | .position c => [(20, 1, c.final.toNat), (19, 1, originCode c.origin)]
  | .track c => [(20, 1, if c.event = .lost then 1 else 0), (19, 1, originCode c.origin)]
  | .idleReturn root top depth => [(10, 3, depth), (5, 5, top), (0, 5, root)]
  | .fault kind _ first lost sticky =>
    [(20, 1, first.toNat), (19, 1, lost.toNat), (8, 6, sticky.toNat), (0, 3, kindCode kind)]
  | .reply r => (20, 1, if 8 ≤ replySubject r then 1 else 0) :: replyFields r

/-- R181, R182: the payload words of a notice. The top page is sent as 0 at depth 0. -/
def payloadFields : NoticeBody → List Fields
  | .pick key _ strike _ _ _ =>
    [match key.element with
      | .ordinal n => [(0, 12, n)]
      | .whole => [(12, 1, 1)],
     pointFields strike]
  | .region _ point _ => [pointFields point]
  | .menu _ _ _ value depth top _ _ _ => [[(16, 5, if depth = 0 then 0 else top), (8, 3, depth), (0, 8, value)]]
  | .miss _ _ _ _ => []
  | .position c => [pointFields c.point]
  | .track c => [pointFields c.point]
  | .idleReturn _ _ _ => []
  | .fault _ context _ _ _ => [[(0, 32, context.toNat)]]
  | .reply r => replyPayload r

/-- R180: a key in 23 bits. -/
def keyNumber (k : Key) : Nat :=
  k.segment * 2 ^ 13 + match k.element with
    | .ordinal n => n
    | .whole => 2 ^ 12

end Sys2Proof.Stated

open Sys2Proof.Stated

/-! ### The block and its queue -/

/-- The command at the front of the queue is executed on the state with the queue's rest. -/
def Obligations.StepRunsTheFrontCommand : Prop :=
  ∀ (c : Instr) (rest : List Instr) (s : State), s.pending = c :: rest → step s = exec c { s with pending := rest }

/-- The model's choice (log 6): a step on an empty queue lets one millisecond pass. -/
def Obligations.EmptyQueueLetsTimePass : Prop :=
  ∀ s : State, s.pending = [] →
    ((s.supervisor.timer = .off ∨ s.supervisor.timer = .stalled) → step s = .next s) ∧
    (∀ ms, s.supervisor.timer = .running ms → 2 ≤ ms →
      step s = .next { s with supervisor := { s.supervisor with timer := .running (ms - 1) } }) ∧
    (∀ ms, s.supervisor.timer = .running ms → ms ≤ 1 →
      ∃ (order : List Pen) (t : State), exec (.frameTimerExpiry order) s = .next t ∧
        step s = .next { t with draws := s.draws + 1 })

/-- The part never stops: every command and every step ends in a next state. -/
def Obligations.NothingStops : Prop :=
  (∀ (c : Instr) (s : State), ∃ t, exec c s = .next t) ∧ ∀ s : State, StepIsSafe s

/-! ### Resets -/

/-- Power-on gives every block its power-on values. The queue of commands and the count of draws are the
model's own and are kept (log 21); no word has gone downstream (log 10). -/
def Obligations.PowerOnGivesThePowerOnValues : Prop :=
  State.reset = powerOn ∧
    ∀ s : State, exec .powerOn s = .next { powerOn with pending := s.pending, draws := s.draws }

/-- A link reset gives every block its reset values; the tables are kept where the keep-tables flag is set, the
tip records are kept, and an attempt in progress ends RESET. The word last sent downstream is kept (log 10). -/
def Obligations.LinkResetGivesTheResetValues : Prop :=
  ∀ s : State, Table.wf SegEntry.blank s.segments = true → ∃ t, exec .linkReset s = .next t ∧
    t = { powerOn with
          link := { held := none, downstream := s.link.downstream }
          segments := t.segments
          pens := t.pens
          regions := { powerOn.regions with records := t.regions.records }
          menu := { powerOn.menu with pages := t.menu.pages }
          pending := s.pending
          draws := s.draws } ∧
    (∀ p, t.pen p = resetPen (s.pen p).tip .reset ∨ t.pen p = resetPen (s.pen p).tip .none) ∧
    (∀ p, (t.pen p).lastOutcome = .reset ↔
      (s.pen p).attempt = .gathering ∨ (s.pen p).attempt = .regionWait ∨ (s.pen p).attempt = .regionCount ∨
        ∃ o, (s.pen p).attempt = .holding o) ∧
    (s.decoder.keep = true → (∀ n, t.segEntry n = { current := s.image n, staged := none }) ∧
      t.regions.records = s.regions.records ∧ t.menu.pages = s.menu.pages) ∧
    (s.decoder.keep = false → t.segments = [] ∧ t.regions.records = [] ∧ t.menu.pages = [])

/-- RESET PART takes the internal reset at once with nothing in flight, and else drains; the retire that empties
the list is taken, a frame close in full, and then the internal reset, which is the link reset of every block.
The model's choice (log 9): the command INTERNAL_RESET takes that last retire itself, and in DRAIN with nothing in
flight it is the internal reset alone. -/
def Obligations.ResetPartDrainsThenResets : Prop :=
  ∀ (s : State) (arg : Arg) (order : List CloseBlock),
    (Listens s → s.beam.flight = [] → ∃ t, exec .linkReset s = .next t ∧ exec (.resetPart arg) s = .next t) ∧
    (Listens s → s.beam.flight ≠ [] →
      exec (.resetPart arg) s = .next { s with decoder := { s.decoder with state := .drain } }) ∧
    (s.decoder.state = .drain → s.beam.flight = [] →
      ∃ t, exec .linkReset s = .next t ∧ exec (.internalReset order) s = .next t) ∧
    (∀ e u, s.decoder.state = .drain → s.beam.flight = [e] →
      u = (if e.kind = .frame then
          State.frameClose { s with beam := { s.beam with flight := [], afterglow := none } } order else s) →
      ∃ t, exec .linkReset u = .next t ∧ exec (.retire order) s = .next t ∧ exec (.internalReset order) s = .next t)

/-! ### Arrivals -/

/-- A word that is neither CTRL nor FRAME, outside a collection, becomes the held word; while upstream ready is
low the display controller keeps its word.
A CTRL word with data count 1 to 15 starts a collection. A word that arrives in a collection with words still due is
data, whatever its kind code reads.
At an order's last word the Decoder returns to IDLE, and the order acts: an unknown code, or a data count that its code
does not expect, raises BAD CONTROL and changes no block; a QUERY of an unknown subject is refused; and every other
order does what its own command does in IDLE. -/
def Obligations.WordArrivalIsRouted : Prop :=
  (∀ (s : State) (w : Word),
    (Listens s → wordKind w ≠ .ctrl → wordKind w ≠ .frame →
      exec (.wordArrival w) s = .next { s with link := { s.link with held := some w } }) ∧
    ((s.link.held ≠ none ∨ (∃ c, s.decoder.state = .held c) ∨ s.decoder.state = .drain) →
      exec (.wordArrival w) s = .next s) ∧
    (Listens s → wordKind w = .ctrl → ctrlCount w ≠ 0 →
      exec (.wordArrival w) s = .next { s with decoder := { s.decoder with state := .collecting w [] } })) ∧
  (∀ (s : State) (ctrl w : Word) (got : List Word), s.link.held = none →
    s.decoder.state = .collecting ctrl got → got.length + 1 < ctrlCount ctrl →
    exec (.wordArrival w) s =
      .next { s with decoder := { s.decoder with state := .collecting ctrl (got ++ [w]) } }) ∧
  (∀ (s t : State) (w ctrl : Word) (data : List Word), LastWordOf s w ctrl data t →
    let code := ctrlCode ctrl
    let arg := ctrlArg ctrl
    (¬ CountExpected code arg data.length → exec (.wordArrival w) s = .next (t.raiseFault .badControl ctrl)) ∧
    (code = 0x7F → data = [] → 10 ≤ field arg 12 4 → exec (.wordArrival w) s = .next (t.raiseFault .badValue ctrl)) ∧
    (CountExpected code arg data.length → (code = 0x7F → field arg 12 4 < 10) →
      ∃ c, orderNamed code arg data = some c ∧ exec (.wordArrival w) s = exec c t))

/-- The arrival of a FRAME holds it, fixes the 16 dots of each active tracker's cross, A before B, and clears
that tracker's stale flag. -/
def Obligations.FrameArrivalFixesTheCrosses : Prop :=
  ∀ (s : State) (w : Word), Listens s → wordKind w = .frame →
    (∀ p, (s.tracker p).position.Law) →
    let dots (p : Pen) (t : Tracker) : List CrossDot :=
      if t.state = .off then [] else
        ([1, 2, 3, 4].map fun k => ⟨p, .e, k, ⟨min 4095 (t.position.x + k * t.pitch), t.position.y⟩⟩) ++
        ([1, 2, 3, 4].map fun k => ⟨p, .w, k, ⟨t.position.x - k * t.pitch, t.position.y⟩⟩) ++
        ([1, 2, 3, 4].map fun k => ⟨p, .n, k, ⟨t.position.x, min 4095 (t.position.y + k * t.pitch)⟩⟩) ++
        ([1, 2, 3, 4].map fun k => ⟨p, .s, k, ⟨t.position.x, t.position.y - k * t.pitch⟩⟩)
    exec (.wordArrival w) s = .next { s with
      link := { s.link with held := some w }
      injection := dots .a s.trackers.a ++ dots .b s.trackers.b
      trackers := ⟨if s.trackers.a.state = .off then s.trackers.a else { s.trackers.a with stale := false },
                   if s.trackers.b.state = .off then s.trackers.b else { s.trackers.b with stale := false }⟩ }

/-! ### Passages -/

/-- MOVE, SEG, PASS and CROSS_DOT pass without rewriting and with an empty mask. The word of a cross dot is a DOT with
intensity 7, the dot's point in its 12-bit fields, and its reserved bits 0.
A word of a reserved kind passes as a PASS and raises BAD ORDER with the word as context.
The held word, and a cross dot, wait while the Flight List is full; a FRAME waits for the last cross dot. -/
def Obligations.UndrawnOrdersPassOrWait : Prop :=
  (∀ (s : State) (w : Word),
    (Waits s .move w → exec .move s = .next (afterPassage s w
      (darkEntry .move ⟨s.beam.segment, .ordinal s.beam.element⟩ (wordPoint w)) (wordPoint w) s.beam.segment
      s.beam.element)) ∧
    (Waits s .seg w → exec .seg s = .next (afterPassage s w
      (darkEntry .seg ⟨field w 0 10, .ordinal 0⟩ s.beam.position) s.beam.position (field w 0 10) 0)) ∧
    (Waits s .pass w → exec .pass s = .next (afterPassage s w
      (darkEntry .pass ⟨s.beam.segment, .ordinal s.beam.element⟩ s.beam.position) s.beam.position s.beam.segment
      s.beam.element)) ∧
    (∀ d rest, s.injection = d :: rest → s.beam.flight.length < 8 →
      exec .crossDot s = .next { s with
        injection := rest
        link := { s.link with downstream := some (BitVec.ofNat 32
          (3 * 2 ^ 28 + 7 * 2 ^ 24 + d.point.x % 2 ^ 12 * 2 ^ 12 + d.point.y % 2 ^ 12)) }
        beam := { s.beam with
          position := d.point
          flight := s.beam.flight ++ [{ origin := .cross d.pen d.arm d.index, kind := .dot, key := ⟨0, .ordinal 0⟩,
                                        endPt := d.point, mask := ⟨false, false⟩, struck := ⟨false, false⟩ }] } })) ∧
  (∀ (s : State) (w : Word), Waits s .reserved w → exec .reservedOrder s = .next ((afterPassage s w
    (darkEntry .pass ⟨s.beam.segment, .ordinal s.beam.element⟩ s.beam.position) s.beam.position s.beam.segment
    s.beam.element).raiseFault .badOrder w)) ∧
  (∀ (s : State) (order : List PassageBlock),
    (8 ≤ s.beam.flight.length → ∀ c ∈ [Instr.move, .line, .dot, .step, .glyph, .seg, .frame order, .pass,
      .reservedOrder, .crossDot], exec c s = .next s) ∧
    (s.injection ≠ [] → exec (.frame order) s = .next s))

/-- LINE, DOT, STEP and GLYPH pass with the intensity and the mask decided at the passage, take the element
counter's value and step it. A LINE or STEP changes nothing else while no test counts.
The intensity is written into bits 26:24 of the word and into no other bits. -/
def Obligations.DrawnOrdersPassWithOneFieldRewritten : Prop :=
  (∀ (s : State) (w : Word), s.beam.position.Law →
    (Waits s .dot w → exec .dot s = .next (afterDrawn s .dot w true (wordPoint w) (wordPoint w))) ∧
    (Waits s .glyph w → exec .glyph s = .next (afterDrawn s .glyph w true s.beam.position (glyphEnd s w))) ∧
    (Waits s .line w → NoTestCounts s →
      exec .line s = .next (afterDrawn s .line w true s.beam.position (wordPoint w))) ∧
    (Waits s .step w → NoTestCounts s →
      exec .step s = .next (afterDrawn s .step w (w.getLsbD 27) s.beam.position (stepEnd s w)))) ∧
  (∀ (w : Word) (i : Nat), i ≤ 7 → field (withIntensity w i) 24 3 = i ∧
    ∀ b, b < 32 → ¬ (24 ≤ b ∧ b ≤ 26) → (withIntensity w i).getLsbD b = w.getLsbD b)

/-- A LINE or STEP of a DRAWING segment with a region is a boundary: it steps the region's counter of each pen
whose test counts by its contribution, or sets the saturation flag; no other counter or flag changes. -/
def Obligations.BoundariesAreCounted : Prop :=
  ∀ (s : State) (w : Word) (kind : WordKind) (p1 : Point),
    Waits s kind w → (kind = .line ∧ p1 = wordPoint w ∨ kind = .step ∧ p1 = stepEnd s w) →
    ∃ t, exec (if kind = .line then .line else .step) s = .next t ∧
      { t with regions := s.regions } =
        afterDrawn s (if kind = .line then .line else .step) w (if kind = .line then true else w.getLsbD 27)
          s.beam.position p1 ∧
      t.regions.records = s.regions.records ∧
      ∀ p, (t.regionTest p).phase = (s.regionTest p).phase ∧ (t.regionTest p).latched = (s.regionTest p).latched ∧
        ∀ r, let old := (s.regionTest p).counter r
          let counted : Int := match (s.image s.beam.segment).kind with
            | .drawing _ (some b) =>
              if b.region = r ∧ (s.regionTest p).phase = .counting then
                contribution (s.regionTest p).latched s.beam.position p1 b.reverse
              else 0
            | _ => 0
          ((counted = 0 ∨ (-15 ≤ old + counted ∧ old + counted ≤ 15)) →
            (t.regionTest p).counter r = old + counted ∧
              (t.regionTest p).isSaturated r = (s.regionTest p).isSaturated r) ∧
          (counted ≠ 0 ∧ (old + counted < -15 ∨ 15 < old + counted) →
            (t.regionTest p).counter r = old ∧ (t.regionTest p).isSaturated r = true)

/-- The crossing test is exact: its sign test agrees with the comparison of the abscissa in the rationals. -/
def Obligations.CrossingTestIsExact : Prop :=
  ∀ (p p0 p1 : Point) (reverse : Bool), contribution p p0 p1 reverse = crossing p p0 p1 reverse

open Classical in
/-- The intensity sent is set by the first row of R40 whose condition holds. -/
def Obligations.IntensityIsSetByTheFirstRow : Prop :=
  ∀ (s : State) (seg i : Nat), i ≤ 7 →
    let img := s.image seg
    let blink := img.display = .blink ∧ s.rewrite.phaseOn = false
    s.sentIntensity seg i =
      if i = 0 then 0
      else if seg = 0 ∨ img.kind = .unused then i
      else if ∃ n k, img.kind = .menu n k ∧ ¬ ShownOnTop s n k ∧ ¬ ShownBelow s n k then 0
      else if img.display = .blank then 0
      else if ∃ n k, img.kind = .menu n k ∧ ShownBelow s n k then min i 2
      else if s.rewrite.echo.a = some seg ∨ s.rewrite.echo.b = some seg then 7
      else if img.display = .highlight ∨
          (∃ n k item, img.kind = .menu n k ∧ (s.menu.page n).items[k]? = some item ∧ item.toggle = true) then 7
      else if blink then 0
      else i

/-- The bit of a pen in the mask of a LINE, DOT, GLYPH or STEP entry is set exactly when the seven tests of R42 pass at
the passage, with the intensity sent as R40 decides it. -/
def Obligations.EligibilityIsTheSevenTests : Prop :=
  ∀ (s : State) (p : Pen) (w : Word),
    let seg := s.beam.segment
    let img := s.image seg
    let Tests (lit : Bool) (p0 p1 : Point) : Prop :=
      let sent := s.sentIntensity seg (field w 24 3)
      ((s.pen p).record.mode = .press ∨ (s.pen p).record.mode = .continuous ∨ (s.pen p).record.mode = .region) ∧
      (lit = true ∧ 1 ≤ seg ∧ seg ≤ 1023) ∧
      ((img.kind ≠ .unused) ∧ img.detectable = true) ∧
      (s.pen p).record.classes.getLsbD img.cls = true ∧
      (1 ≤ sent ∧ sent ≤ 7) ∧
      s.fencePasses p p0 p1 = true ∧
      ∀ n k, img.kind = .menu n k → ShownOnTop s n k
    let Decides (c : Instr) (lit : Bool) (p0 p1 : Point) : Prop :=
      ∃ t e, exec c s = .next t ∧ t.beam.flight = s.beam.flight ++ [e] ∧ (e.mask.get p = true ↔ Tests lit p0 p1)
    s.beam.position.Law → seg ≤ 1023 →
    (Waits s .line w → Decides .line true s.beam.position (wordPoint w)) ∧
    (Waits s .dot w → Decides .dot true (wordPoint w) (wordPoint w)) ∧
    (Waits s .glyph w → Decides .glyph true s.beam.position (glyphEnd s w)) ∧
    (Waits s .step w → Decides .step (w.getLsbD 27) s.beam.position (stepEnd s w))

/-- The fence tests: NONE passes; FIXED passes when the order's bounding box and the rectangle share a point,
edges included; FOLLOW passes while the tracker is OFF, and else is FIXED on a rectangle centred on the tracker's
position, each end clamped. -/
def Obligations.FenceSharesAPointWithTheBox : Prop :=
  let share (p0 p1 : Point) (xmin xmax ymin ymax : Nat) : Prop :=
    ∃ x y, min p0.x p1.x ≤ x ∧ x ≤ max p0.x p1.x ∧ min p0.y p1.y ≤ y ∧ y ≤ max p0.y p1.y ∧
      xmin ≤ x ∧ x ≤ xmax ∧ ymin ≤ y ∧ y ≤ ymax
  ∀ (s : State) (p : Pen) (p0 p1 : Point),
    ((s.pen p).record.fence = .none → s.fencePasses p p0 p1 = true) ∧
    (∀ xmin xmax ymin ymax, (s.pen p).record.fence = .fixed xmin xmax ymin ymax → xmin ≤ xmax → ymin ≤ ymax →
      (s.fencePasses p p0 p1 = true ↔ share p0 p1 xmin xmax ymin ymax)) ∧
    (∀ hx hy, (s.pen p).record.fence = .follow hx hy → (s.tracker p).state = .off →
      s.fencePasses p p0 p1 = true) ∧
    (∀ hx hy, (s.pen p).record.fence = .follow hx hy → (s.tracker p).state ≠ .off → (s.tracker p).position.Law →
      (s.fencePasses p p0 p1 = true ↔
        share p0 p1 ((s.tracker p).position.x - hx) (min 4095 ((s.tracker p).position.x + hx))
          ((s.tracker p).position.y - hy) (min 4095 ((s.tracker p).position.y + hy))))

/-! ### The frame passage -/

/-- The frame passage: the FRAME passes, the beam state returns to its start, every pending image is applied, and
the blink counter steps. The blocks that take it change nothing of these; with no region test and no idle counter
running nothing else changes at all. The tests of pen A and pen B and the Menu Unit take it once each, one after
another, in the order that the command gives (log 4). -/
def Obligations.FramePassageBeginsAFrame : Prop :=
  (∀ (s : State) (order : List PassageBlock) (w : Word), Waits s .frame w → s.injection = [] →
    Table.wf SegEntry.blank s.segments = true →
    ∃ t, exec (.frame order) s = .next t ∧
      t.link = { held := none, downstream := some w } ∧
      t.beam = { s.beam with position := ⟨0, 0⟩, segment := 0, element := 0
                             flight := s.beam.flight ++ [darkEntry .frame ⟨0, .ordinal 0⟩ ⟨0, 0⟩] } ∧
      t.trackers = s.trackers ∧ t.injection = s.injection ∧ t.decoder = s.decoder ∧
      t.supervisor = s.supervisor ∧ t.pending = s.pending ∧ t.draws = s.draws ∧
      (∀ n, t.segEntry n = { current := (s.segEntry n).staged.getD (s.segEntry n).current, staged := none }) ∧
      t.rewrite.halfPeriod = s.rewrite.halfPeriod ∧
      (t.rewrite.phaseOn, t.rewrite.counter) = (if s.rewrite.counter + 1 = s.rewrite.halfPeriod then
        (!s.rewrite.phaseOn, 0) else (s.rewrite.phaseOn, s.rewrite.counter + 1)) ∧
      ((∀ p, (s.regionTest p).phase = .idle) → (s.menu.owner = none ∨ s.menu.idleLimit = 0) →
        t.pens = s.pens ∧ t.regions = s.regions ∧ t.menu = s.menu ∧ t.notices = s.notices ∧
          t.rewrite.echo = s.rewrite.echo)) ∧
  (∀ (s : State) (order : List PassageBlock) (w : Word), Waits s .frame w → s.injection = [] →
    Table.wf SegEntry.blank s.segments = true →
    ∃ (began : State) (blocks : List PassageBlock),
      blocks.Perm [.regionTest .a, .regionTest .b, .menuUnit] ∧ (order.Perm blocks → blocks = order) ∧
      exec (.frame order) s = .next (blocks.foldl State.blockPassage began) ∧
      began = { s with
        link := { held := none, downstream := some w }
        beam := { s.beam with position := ⟨0, 0⟩, segment := 0, element := 0
                              flight := s.beam.flight ++ [darkEntry .frame ⟨0, .ordinal 0⟩ ⟨0, 0⟩] }
        segments := began.segments
        rewrite := { s.rewrite with
          phaseOn := if s.rewrite.counter + 1 = s.rewrite.halfPeriod then !s.rewrite.phaseOn else s.rewrite.phaseOn
          counter := if s.rewrite.counter + 1 = s.rewrite.halfPeriod then 0 else s.rewrite.counter + 1 } } ∧
      ∀ n, began.segEntry n = { current := (s.segEntry n).staged.getD (s.segEntry n).current, staged := none })

/-- While the menu lock has an owner and the idle limit is not 0, a frame passage steps the idle counter; at the
limit the stack is cut to its root, the lock released, and an IDLE RETURN notice requested for the former
owner. The same of the Menu Unit alone, as it takes the frame passage, whatever the other blocks do. -/
def Obligations.IdleReturnCutsTheStack : Prop :=
  (∀ (s : State) (order : List PassageBlock) (w : Word) (p : Pen) (root : Nat) (rest : List Nat),
    Waits s .frame w → s.injection = [] → (∀ q, (s.regionTest q).phase = .idle) →
    s.menu.owner = some p → s.menu.idleLimit ≠ 0 → s.menu.stack = root :: rest →
    ∃ t, exec (.frame order) s = .next t ∧
      let claim : IdleClaim := { owner := p, root := root, topBefore := (root :: rest).getLastD 0,
                                 depthBefore := rest.length + 1 }
      let cut : MenuUnit := { s.menu with stack := [root], owner := none, idleCounter := 0 }
      (s.menu.idleCounter + 1 ≠ s.menu.idleLimit →
        t.menu = { s.menu with idleCounter := s.menu.idleCounter + 1 } ∧ t.notices = s.notices) ∧
      (s.menu.idleCounter + 1 = s.menu.idleLimit → Room s → t.menu = cut ∧
        t.notices = s.notices.enter (channelSet (s.pen p).record.channel) (some p)
          (.idleReturn root claim.topBefore claim.depthBefore)) ∧
      (s.menu.idleCounter + 1 = s.menu.idleLimit → ¬ Room s →
        t.menu = { cut with claim := some claim } ∧ t.notices = s.notices)) ∧
  (∀ s : State,
    let t := s.blockPassage .menuUnit
    (s.menu.owner = none ∨ s.menu.idleLimit = 0 → t = s) ∧
    ∀ p root rest, s.menu.owner = some p → s.menu.idleLimit ≠ 0 → s.menu.stack = root :: rest →
      let claim : IdleClaim := { owner := p, root := root, topBefore := (root :: rest).getLastD 0,
                                 depthBefore := rest.length + 1 }
      let cut : MenuUnit := { s.menu with stack := [root], owner := none, idleCounter := 0 }
      (s.menu.idleCounter + 1 ≠ s.menu.idleLimit →
        t = { s with menu := { s.menu with idleCounter := s.menu.idleCounter + 1 } }) ∧
      (s.menu.idleCounter + 1 = s.menu.idleLimit → Room s → t = { s with
        menu := cut
        notices := s.notices.enter (channelSet (s.pen p).record.channel) (some p)
          (.idleReturn root claim.topBefore claim.depthBefore) }) ∧
      (s.menu.idleCounter + 1 = s.menu.idleLimit → ¬ Room s →
        t = { s with menu := { cut with claim := some claim } }))

/-- A frame passage that finds a test WAITING latches it at the tracker's position, with every counter 0 and every
flag clear, and the pen engine enters REGION-COUNT.
A frame passage that finds a test COUNTING evaluates it: the winner is delivered as a REGION notice where room
exists, and else held; without a winner the attempt ends MISS OUTSIDE, and its MISS notice is offered. The other
pen's test is not COUNTING, and its phase follows its attempt state, which StepKeepsThePens keeps.
The same of one pen's test alone, as it takes the frame passage, whatever the other blocks do. -/
def Obligations.FramePassageDecidesRegionTests : Prop :=
  (∀ (s : State) (order : List PassageBlock) (w : Word) (p : Pen), Waits s .frame w → s.injection = [] →
    (s.regionTest p).phase = .waiting →
    ∃ t, exec (.frame order) s = .next t ∧ (t.regionTest p).phase = .counting ∧
      (t.regionTest p).latched = (s.tracker p).position ∧
      (∀ r, (t.regionTest p).counter r = 0 ∧ (t.regionTest p).isSaturated r = false) ∧
      t.pen p = { s.pen p with attempt := .regionCount }) ∧
  (∀ (s : State) (order : List PassageBlock) (w : Word) (p : Pen), Waits s .frame w → s.injection = [] →
    (s.regionTest p).phase = .counting → (s.pen p).attempt = .regionCount → (s.pen p).record.mode = .region →
    (s.regionTest (otherPen p)).phase ≠ .counting → s.RegionAttemptLaw (otherPen p) →
    (s.menu.owner = none ∨ s.menu.idleLimit = 0) →
    ∃ t, exec (.frame order) s = .next t ∧ t.regionTest p = { s.regionTest p with phase := .idle } ∧
      let point := (s.regionTest p).latched
      let seen := (s.regionTest p).saturatedSeen
      let settled : AttemptState := if (s.pen p).tip = .down then .settled none false else .ready
      (∀ r, s.regions.winner (s.regionTest p) = some r → Room s →
        t.pen p = { s.pen p with attempt := settled, lastOutcome := .region } ∧
        t.notices = s.notices.enter
          (if (s.regions.record r).route = 0 then channelSet (s.pen p).record.channel
           else (s.regions.record r).route) (some p) (.region r point seen)) ∧
      (∀ r, s.regions.winner (s.regionTest p) = some r → ¬ Room s →
        t.pen p = { s.pen p with attempt := .holding (.region r point seen) } ∧ t.notices = s.notices) ∧
      (s.regions.winner (s.regionTest p) = none →
        t.pen p = { s.pen p with attempt := .settled none false, candidates := [], exclusions := []
                                 lastOutcome := .miss .outside } ∧
        t.notices = (afterMiss s p (s.pen p) .outside (.settled none false)).notices)) ∧
  (∀ (s : State) (p : Pen),
    let t := s.blockPassage (.regionTest p)
    let u := s.regionTest p
    (u.phase = .idle → t = s) ∧
    (u.phase = .waiting → t = { s with
        pens := s.pens.set p { s.pen p with attempt := .regionCount }
        regions := { s.regions with tests := s.regions.tests.set p (t.regionTest p) } } ∧
      (t.regionTest p).phase = .counting ∧ (t.regionTest p).latched = (s.tracker p).position ∧
      ∀ r, (t.regionTest p).counter r = 0 ∧ (t.regionTest p).isSaturated r = false) ∧
    (u.phase = .counting →
      let idle : RegionUnit := { s.regions with tests := s.regions.tests.set p { u with phase := .idle } }
      (∀ r, s.regions.winner u = some r → Room s → t = { s with
        regions := idle
        pens := s.pens.set p { s.pen p with attempt := afterDelivery (s.pen p) none, lastOutcome := .region }
        notices := s.notices.enter (routeOf s p (s.regions.record r).route) (some p)
          (.region r u.latched u.saturatedSeen) }) ∧
      (∀ r, s.regions.winner u = some r → ¬ Room s → t = { s with
        regions := idle
        pens := s.pens.set p { s.pen p with attempt := .holding (.region r u.latched u.saturatedSeen) } }) ∧
      (s.regions.winner u = none → t = afterMiss s p (s.pen p) .outside (.settled none false))))

/-- A region is inside when its record is enabled, its saturation flag clear, and its counter satisfies its rule;
the winner is the inside region of highest priority, the lowest number among equals. -/
def Obligations.EvaluationFindsTheWinner : Prop :=
  ∀ (u : RegionUnit) (t : RegionTest),
    let Inside (r : Nat) : Prop := 1 ≤ r ∧ r ≤ 63 ∧ (u.record r).enabled = true ∧ t.isSaturated r = false ∧
      ((u.record r).rule = .evenOdd → Odd (t.counter r)) ∧ ((u.record r).rule = .nonzero → t.counter r ≠ 0)
    (∀ r, u.winner t = some r ↔ Inside r ∧ ∀ q, Inside q →
      (u.record q).priority < (u.record r).priority ∨
        ((u.record q).priority = (u.record r).priority ∧ r ≤ q)) ∧
    (u.winner t = none ↔ ∀ r, ¬ Inside r) ∧
    (t.saturatedSeen = true ↔ ∃ r, 1 ≤ r ∧ r ≤ 63 ∧ t.isSaturated r = true)

/-! ### Retires and the frame close -/

/-- A retire removes the head: a drawing-kind entry is copied into the afterglow record, a SEG or PASS leaves it.
The retire of a FRAME is the frame close. With both pens and trackers quiet it empties the afterglow record,
restarts the frame timer and clears the echo of a pen whose ECHO option is on.
Whatever the pens and trackers do at it, and in whatever order, it changes the afterglow record, the timer and the
blocks that take it, and leaves the link, the beam, the cross dots and the Control Decoder as they were. Each pen
engine and each tracker takes it once, one after another, in the order that the command gives (log 3).
A pen in OFF, READY or HOLDING stays as it was; in SETTLED in CONTINUOUS mode it clears its settled-struck flag, or
returns to READY where the flag is clear.
In DRAIN all this goes on while entries remain in flight; ResetPartDrainsThenResets states the retire that empties the
list.
A retire while the Flight List is empty raises SPURIOUS RETIRE, with the context word 0, and does nothing else. -/
def Obligations.RetireTakesTheHead : Prop :=
  (∀ (s : State) (order : List CloseBlock) (e : Entry) (rest : List Entry), s.beam.flight = e :: rest →
    (s.decoder.state ≠ .drain ∨ rest ≠ []) →
    (DrawingKind e → exec (.retire order) s =
      .next { s with beam := { s.beam with flight := rest, afterglow := some e } }) ∧
    (e.kind = .seg ∨ e.kind = .pass → exec (.retire order) s =
      .next { s with beam := { s.beam with flight := rest } })) ∧
  (∀ (s : State) (order : List CloseBlock) (e : Entry) (rest : List Entry), s.beam.flight = e :: rest →
    e.kind = .frame → (s.decoder.state ≠ .drain ∨ rest ≠ []) → (∀ p, Quiet s p) →
    exec (.retire order) s = .next { s with
      beam := { s.beam with flight := rest, afterglow := none }
      supervisor := { s.supervisor with timer := timerAfterClose s.supervisor }
      rewrite := { s.rewrite with echo :=
        ⟨if s.pens.a.attempt ≠ .off ∧ s.pens.a.record.echo = true then none else s.rewrite.echo.a,
         if s.pens.b.attempt ≠ .off ∧ s.pens.b.record.echo = true then none else s.rewrite.echo.b⟩ } }) ∧
  (∀ (s : State) (order : List CloseBlock) (e : Entry) (rest : List Entry), s.beam.flight = e :: rest →
    e.kind = .frame → (s.decoder.state ≠ .drain ∨ rest ≠ []) →
    ∃ t, exec (.retire order) s = .next t ∧ t.beam = { s.beam with flight := rest, afterglow := none } ∧
      t.supervisor = { s.supervisor with timer := timerAfterClose s.supervisor } ∧ t.link = s.link ∧
      t.injection = s.injection ∧ t.decoder = s.decoder ∧ t.pending = s.pending ∧ t.draws = s.draws ∧
      ∀ p,
        ((s.pen p).attempt = .off ∨ (s.pen p).attempt = .ready ∨ (∃ o, (s.pen p).attempt = .holding o) →
          t.pen p = s.pen p) ∧
        ∀ k b, (s.pen p).attempt = .settled k b →
          let attempt : AttemptState := if (s.pen p).record.mode = .continuous then
              (if b = true then .settled k false else .ready)
            else .settled k b
          t.pen p = { s.pen p with attempt := attempt }) ∧
  (∀ (s : State) (order : List CloseBlock) (e : Entry) (rest : List Entry), s.beam.flight = e :: rest →
    e.kind = .frame → (s.decoder.state ≠ .drain ∨ rest ≠ []) →
    ∃ blocks : List CloseBlock, blocks.Perm [.penEngine .a, .penEngine .b, .tracker .a, .tracker .b] ∧
      (order.Perm blocks → blocks = order) ∧
      exec (.retire order) s = .next (blocks.foldl State.blockClose { s with
        beam := { s.beam with flight := rest, afterglow := none }
        supervisor := { s.supervisor with timer := timerAfterClose s.supervisor } })) ∧
  (∀ (s : State) (order : List CloseBlock), s.beam.flight = [] →
    exec (.retire order) s = .next (s.raiseFault .spuriousRetire 0#32))

/-- A frame close at each tracker, where no pen is GATHERING: an OFF tracker is as it was; with the settle flag set
the flag is cleared; with no struck dot a LOCKED tracker coasts and a COASTING one counts, until the coast limit
loses the lock; with struck dots the position is corrected and the tracker is LOCKED.
What a tracker does when it takes the frame close, whatever the other blocks do: a lost lock requests TRACK LOST, a lock
from SEEKING requests TRACK LOCKED, a position that differs from the last reported one is requested, and a tracker that
leaves LOCKED ends a region attempt MISS TRACK. At coast limit 1 the notification comes before the request (log 12). -/
def Obligations.FrameCloseCorrectsTheTrackers : Prop :=
  (∀ (s : State) (order : List CloseBlock) (e : Entry) (rest : List Entry), s.beam.flight = e :: rest →
    e.kind = .frame → (s.decoder.state ≠ .drain ∨ rest ≠ []) → (∀ p, (s.pen p).attempt ≠ .gathering) →
    ∃ t, exec (.retire order) s = .next t ∧ ∀ p,
      let u := s.tracker p
      let v := t.tracker p
      let hits := struckDots u.tally.e + struckDots u.tally.w + struckDots u.tally.n + struckDots u.tally.s
      let missed := if u.state = .locked then 1 else u.missCount + 1
      let moved (x : Nat) (plus minus : BitVec 4) : Nat := (max 0 (min 4095 ((x : Int) +
        (((struckDots plus : Int) - struckDots minus) * u.pitch).tdiv 2))).toNat
      v.pitch = u.pitch ∧ v.coastLimit = u.coastLimit ∧ v.origin = u.origin ∧ v.stale = u.stale ∧
      (u.state = .off → v = u) ∧
      (u.state ≠ .off → u.settle = true → v = { u with settle := false, tally := ⟨0, 0, 0, 0⟩ }) ∧
      (u.state ≠ .off → u.settle = false → v.settle = false ∧ v.tally = ⟨0, 0, 0, 0⟩) ∧
      (u.state = .seeking → u.settle = false → hits = 0 → v = { u with tally := ⟨0, 0, 0, 0⟩ }) ∧
      (u.state = .locked ∨ u.state = .coasting → u.settle = false → hits = 0 → v.position = u.position ∧
        (missed = u.coastLimit → v.state = .seeking ∧ v.missCount = 0) ∧
        (missed ≠ u.coastLimit → v = { u with state := .coasting, missCount := missed, tally := ⟨0, 0, 0, 0⟩ })) ∧
      (u.state ≠ .off → u.settle = false → hits ≠ 0 → v.state = .locked ∧ v.missCount = 0 ∧
        v.position = ⟨moved u.position.x u.tally.e u.tally.w, moved u.position.y u.tally.n u.tally.s⟩)) ∧
  (∀ (s : State) (p : Pen),
    let u := s.tracker p
    let hits := struckDots u.tally.e + struckDots u.tally.w + struckDots u.tally.n + struckDots u.tally.s
    let with_ (v : Tracker) : State := { s with trackers := s.trackers.set p { v with tally := ⟨0, 0, 0, 0⟩ } }
    let lost (t : State) : State := afterTrackRequest
      { t with trackers := t.trackers.set p { t.tracker p with state := .seeking, missCount := 0 } } p
      { event := .lost, point := u.position, origin := u.origin }
    let moved (x : Nat) (plus minus : BitVec 4) : Nat := (max 0 (min 4095 ((x : Int) +
      (((struckDots plus : Int) - struckDots minus) * u.pitch).tdiv 2))).toNat
    let point : Point := ⟨moved u.position.x u.tally.e u.tally.w, moved u.position.y u.tally.n u.tally.s⟩
    let locked := with_ { u with state := .locked, position := point, missCount := 0 }
    let told : State := if u.state = .seeking then
        afterTrackRequest locked p { event := .locked, point := point, origin := u.origin } else locked
    let t := s.blockClose (.tracker p)
    (u.state = .off → t = s) ∧
    (u.state ≠ .off → u.settle = true → t = with_ { u with settle := false }) ∧
    (u.state = .seeking → u.settle = false → hits = 0 → t = with_ u) ∧
    (u.state = .locked → u.settle = false → hits = 0 →
      let coasting := afterUnlock (with_ { u with state := .coasting, missCount := 1 }) p
      t = if u.coastLimit = 1 then lost coasting else coasting) ∧
    (u.state = .coasting → u.settle = false → hits = 0 →
      let coasting := with_ { u with missCount := u.missCount + 1 }
      t = if u.missCount + 1 = u.coastLimit then lost coasting else coasting) ∧
    (u.state ≠ .off → u.settle = false → hits ≠ 0 →
      t = if point = u.lastReported then told
        else told.positionRequest p { point := point, origin := u.origin, final := false }))

/-- A POSITION request: not made while a FINAL claim waits, unless it is FINAL; else it rewrites a POSITION notice
of the pen that has not begun to be sent and is not FINAL, or replaces a waiting claim, or enters where no POSITION
notice of the pen stands and room exists, or waits; and it becomes the last reported position. -/
def Obligations.PositionRequestIsCoalesced : Prop :=
  ∀ (s : State) (p : Pen) (req : PositionClaim),
    let u := s.tracker p
    let finalWaits : Prop := ∃ c, u.positionClaim = some c ∧ c.final = true
    let fresh (n : Notice) : Prop :=
      n.pen = some p ∧ n.accepted = 0 ∧ ∃ c, n.body = .position c ∧ c.final = false
    let reported (u : Tracker) : Pair Tracker := s.trackers.set p { u with lastReported := req.point }
    (finalWaits → req.final = false → s.positionRequest p req = s) ∧
    ((¬ finalWaits ∨ req.final = true) →
      ((∃ n ∈ s.notices.queue, fresh n) → ∃ queue, s.positionRequest p req = { s with
          trackers := reported u, notices := { s.notices with queue := queue } } ∧
        queue.length = s.notices.queue.length ∧
        ∀ (i : Nat) (n : Notice), s.notices.queue[i]? = some n →
          (fresh n → queue[i]? = some { n with body := .position req }) ∧ (¬ fresh n → queue[i]? = some n)) ∧
      ((∀ n ∈ s.notices.queue, ¬ fresh n) →
        (u.positionClaim = none → Room s →
          (∀ n ∈ s.notices.queue, ∀ c, n.body = .position c → n.pen ≠ some p) →
          s.positionRequest p req = { s with
            trackers := reported u
            notices := s.notices.enter (channelSet (s.pen p).record.channel) (some p) (.position req) }) ∧
        ((u.positionClaim ≠ none ∨ ¬ Room s ∨ ∃ n ∈ s.notices.queue, n.pen = some p ∧ ∃ c, n.body = .position c) →
          s.positionRequest p req = { s with trackers := reported { u with positionClaim := some req } })))

/-- The lists that a weighing forms: each record takes its struck flag into its history, and is removed when its
history is all 0 or it fails revalidation; a record qualifies with C ones in its newest W bits and, with CYCLE on,
when it is not excluded, unless the cycle wraps; and the first in the ranking has the highest priority, then the
most ones in the newest W bits, then the earliest first-seen number. -/
def Obligations.WeighingFormsItsLists : Prop :=
  ∀ (s : State) (p : Pen),
    let e := s.pen p
    let shifted (c : Candidate) : BitVec 8 := (c.history <<< 1) ||| (if c.struck = true then 1#8 else 0#8)
    let kept (c : Candidate) : Option Candidate :=
      let img := s.image c.key.segment
      let record (kind : CandidateKind) : Candidate := { c with history := shifted c, struck := false, kind := kind }
      if shifted c = 0#8 ∨ img.detectable = false ∨ e.record.classes.getLsbD img.cls = false then none
      else match img.kind with
        | .unused => none
        | .drawing _ _ => some (record .drawing)
        | .menu n _ => if s.menu.stack.getLast? = some n then some (record .menu) else none
    s.weighedList p = e.candidates.filterMap kept ∧
    ∀ cs : List Candidate,
      let ones (c : Candidate) : Nat := ((List.range e.record.w).filter fun i => c.history.getLsbD i).length
      let met := cs.filter fun c => decide (e.record.c ≤ ones c)
      let free := met.filter fun c => decide (c.key ∉ e.exclusions)
      (e.record.cycle = false → e.qualify cs = (met, e.exclusions)) ∧
      (e.record.cycle = true → e.qualify cs =
        if free = [] ∧ met ≠ [] then (met, []) else (free, e.exclusions)) ∧
      (s.rankedFirst e.record.w cs = none ↔ cs = []) ∧
      ∀ r, s.rankedFirst e.record.w cs = some r → r ∈ cs ∧ ∀ d ∈ cs,
        (s.image d.key.segment).priority < (s.image r.key.segment).priority ∨
          (s.image d.key.segment).priority = (s.image r.key.segment).priority ∧
            (ones d < ones r ∨ ones d = ones r ∧ r.firstSeen ≤ d.firstSeen)

/-- A frame close ends the weighing of a GATHERING pen: with a winner it is confirmed, its key joining the exclusion list
when CYCLE is on, and it is delivered or held; with
none at the span the attempt ends MISS SPAN; else the pen stays GATHERING, and with ECHO on the echo takes the
top-ranked segment. There the other pen is quiet and both trackers are OFF.
The same of the weighing alone, whatever the other blocks do at the frame close: a winner that finds room is delivered
at once, as a menu pick on a MENU segment and as a PICK on any other, with its mark and its drag seed. -/
def Obligations.FrameCloseEndsTheWeighing : Prop :=
  (∀ (s : State) (p : Pen) (order : List CloseBlock) (entry : Entry) (rest : List Entry),
    s.beam.flight = entry :: rest → entry.kind = .frame → (s.decoder.state ≠ .drain ∨ rest ≠ []) →
    Quiet s (otherPen p) →
    (s.tracker p).state = .off → (s.pen p).attempt = .gathering →
    let e := s.pen p
    let cs := s.weighedList p
    let q := e.qualify cs
    let weighed : PenEngine := { e with frameCount := e.frameCount + 1 }
    ∃ t, exec (.retire order) s = .next t ∧
      (q.1 = [] → e.frameCount + 1 ≠ e.record.span → t.notices = s.notices ∧
        t.pen p = { weighed with candidates := cs } ∧
        t.rewrite.echo.get p = if e.record.echo = true then
          (s.rankedFirst e.record.w cs).map (fun c => c.key.segment) else s.rewrite.echo.get p) ∧
      (q.1 = [] → e.frameCount + 1 = e.record.span → t.rewrite.echo.get p = none ∧
        t.pen p = { weighed with
          candidates := [], exclusions := [], lastOutcome := .miss .span
          attempt := if e.record.mode = .continuous then .ready else .settled none false } ∧
        t.notices = if s.hasRoom then s.notices.enter (channelSet e.record.channel) (some p)
            (.miss .span (e.frameCount + 1) cs.length e.crowded)
          else s.notices) ∧
      (q.1 ≠ [] → ∃ r, s.rankedFirst e.record.w q.1 = some r ∧ t.rewrite.echo.get p = none ∧
        let confirmed : PenEngine := { weighed with
          candidates := []
          exclusions := if e.record.cycle = true then withExclusion q.2 r.key else q.2 }
        (¬ Room s → t.notices = s.notices ∧
          t.pen p = { confirmed with attempt := .holding (.winner r.key r.strike (decide (q.2 ≠ []))) }) ∧
        (∀ b, Room s → (s.image r.key.segment).kind = .drawing false b →
          t.pen p = { confirmed with attempt := afterDelivery confirmed (some r.key), lastOutcome := .pick } ∧
          t.notices = s.notices.enter (routeOf s p (s.image r.key.segment).route) (some p)
            (.pick r.key (s.image r.key.segment).cls r.strike (decide (q.2 ≠ [])) e.record.mark false)))) ∧
  (∀ (s : State) (p : Pen), (s.pen p).attempt = .gathering →
    let e := s.pen p
    let cs := s.weighedList p
    let q := e.qualify cs
    let weighed : PenEngine := { e with frameCount := e.frameCount + 1, candidates := cs }
    let top := (s.rankedFirst e.record.w cs).map fun c => c.key.segment
    let t := s.blockClose (.penEngine p)
    (q.1 = [] → e.frameCount + 1 ≠ e.record.span → t = { s with
      pens := s.pens.set p weighed
      rewrite := if e.record.echo = true then { s.rewrite with echo := s.rewrite.echo.set p top }
        else s.rewrite }) ∧
    (q.1 = [] → e.frameCount + 1 = e.record.span →
      t = afterMiss s p weighed .span (if e.record.mode = .continuous then .ready else .settled none false)) ∧
    (q.1 ≠ [] → ∃ r, s.rankedFirst e.record.w q.1 = some r ∧
      let cycled := decide (q.2 ≠ [])
      let confirmed : PenEngine := { weighed with
        candidates := []
        exclusions := if e.record.cycle = true then withExclusion q.2 r.key else q.2 }
      let base := { s with
        pens := s.pens.set p confirmed
        rewrite := { s.rewrite with echo := s.rewrite.echo.set p none } }
      (¬ Room s → t = { base with
        pens := s.pens.set p { confirmed with attempt := .holding (.winner r.key r.strike cycled) } }) ∧
      (∀ n k, Room s → (s.image r.key.segment).kind = .menu n k → DeliversMenu base p r.key n k cycled t) ∧
      (∀ drag b, Room s → (s.image r.key.segment).kind = .drawing drag b →
        DeliversPick base p r.key r.strike cycled drag t)))

/-! ### Strikes and tip events -/

/-- A strike goes to the oldest drawing-kind entry, else to the afterglow record, else it is stray. A target whose
struck flag for the pen is set is left as it was; otherwise the flag is set, and a target that delivers nothing to
the pen changes nothing else. -/
def Obligations.StrikeIsAttributed : Prop :=
  ∀ (s : State) (p : Pen) (before after : List Entry) (e : Entry),
    let mute (e : Entry) : Prop :=
      (e.origin = .stream ∧ (e.kind = .move ∨ e.mask.get p = false)) ∨
        ∃ arm k, e.origin = .cross (otherPen p) arm k
    ((∀ x ∈ s.beam.flight, ¬ DrawingKind x) → s.beam.afterglow = none → exec (.strike p) s = .next s) ∧
    ((∀ x ∈ before, ¬ DrawingKind x) → DrawingKind e → s.beam.flight = before ++ e :: after →
      (e.struck.get p = true → exec (.strike p) s = .next s) ∧
      (e.struck.get p = false → mute e → exec (.strike p) s = .next { s with beam := { s.beam with
        flight := before ++ { e with struck := e.struck.set p true } :: after } })) ∧
    ((∀ x ∈ s.beam.flight, ¬ DrawingKind x) → s.beam.afterglow = some e →
      (e.struck.get p = true → exec (.strike p) s = .next s) ∧
      (e.struck.get p = false → mute e → exec (.strike p) s = .next { s with beam := { s.beam with
        afterglow := some { e with struck := e.struck.set p true } } }))

/-- A strike on an eligible entry, in the Flight List or in the afterglow record, is a hit: a GATHERING pen records it.
In CONTINUOUS mode a hit starts an attempt in READY, and sets the settled-struck flag in SETTLED when its key is the
settled key. In every other state, and on a segment not in use, a hit does nothing but mark the entry struck.
A recorded hit marks its key's record struck; a new key joins at the tail while the list holds fewer than 12 records,
and else displaces the victim of R78 when it has at most one 1 bit; otherwise the hit is dropped and CROWDED set. A
record that is to join while the first-seen counter stands at 4095 finds the list renumbered from 0. -/
def Obligations.HitJoinsTheCandidateList : Prop :=
  (∀ (s : State) (p : Pen) (e : Entry) (hit : State) (kind : CandidateKind),
    Strikes s p e hit → e.Pickable → e.mask.get p = true →
    (kind = .menu ↔ ∃ n k, (s.image e.key.segment).kind = .menu n k) →
    let become (v : PenEngine) : Host.Outcome State Fault Refusal := .next { hit with pens := s.pens.set p v }
    ((s.pen p).attempt = .gathering → (s.image e.key.segment).kind ≠ .unused →
      exec (.strike p) s = become ((s.pen p).recordKey e.key kind e.endPt)) ∧
    ((s.pen p).attempt = .ready → (s.pen p).record.mode = .continuous → (s.image e.key.segment).kind ≠ .unused →
      exec (.strike p) s = become { s.pen p with
        attempt := .gathering, frameCount := 0, crowded := false, firstSeen := 1
        candidates := [{ key := e.key, kind := kind, history := 0#8, struck := true, firstSeen := 0,
                         strike := e.endPt }] }) ∧
    (∀ b, (s.pen p).attempt = .settled (some e.key) b → (s.pen p).record.mode = .continuous →
      exec (.strike p) s = become { s.pen p with attempt := .settled (some e.key) true }) ∧
    (((s.pen p).attempt = .ready ∧
          ((s.pen p).record.mode ≠ .continuous ∨ (s.image e.key.segment).kind = .unused) ∨
        (∃ k b, (s.pen p).attempt = .settled k b ∧ (k ≠ some e.key ∨ (s.pen p).record.mode ≠ .continuous)) ∨
        (s.pen p).attempt = .off ∨ (s.pen p).attempt = .regionWait ∨ (s.pen p).attempt = .regionCount ∨
        (∃ o, (s.pen p).attempt = .holding o) ∨
        (s.pen p).attempt = .gathering ∧ (s.image e.key.segment).kind = .unused) →
      exec (.strike p) s = .next hit)) ∧
  (∀ (e : PenEngine) (key : Key) (kind : CandidateKind) (strike : Point),
    let joined (cs : List Candidate) : PenEngine :=
      let numbered := if e.firstSeen = 4095 then cs.mapIdx fun i c => { c with firstSeen := i } else cs
      let next := if e.firstSeen = 4095 then cs.length else e.firstSeen
      { e with
        candidates := numbered ++
          [{ key := key, kind := kind, history := 0#8, struck := true, firstSeen := next, strike := strike }]
        firstSeen := next + 1 }
    ((∃ c ∈ e.candidates, c.key = key) → e.recordKey key kind strike = { e with
      candidates := e.candidates.map fun c =>
        if c.key = key then { c with struck := true, kind := kind, strike := strike } else c }) ∧
    ((∀ c ∈ e.candidates, c.key ≠ key) → e.candidates.length < 12 →
      e.recordKey key kind strike = joined e.candidates) ∧
    ((∀ c ∈ e.candidates, c.key ≠ key) → e.candidates.length = 12 →
      ∃ v ∈ e.candidates,
        (∀ c ∈ e.candidates, onesIn v.history 8 < onesIn c.history 8 ∨
          (onesIn v.history 8 = onesIn c.history 8 ∧ v.firstSeen ≤ c.firstSeen)) ∧
        (onesIn v.history 8 ≤ 1 →
          e.recordKey key kind strike = joined (e.candidates.filter fun c => decide (c.key ≠ v.key))) ∧
        (2 ≤ onesIn v.history 8 → e.recordKey key kind strike = { e with crowded := true })))

/-- A strike on a dot of the pen's own cross, in the Flight List or in the afterglow record, adds its index to the tally
of an active tracker whose stale flag is clear; with the tracker OFF or stale the hit is discarded. -/
def Obligations.CrossHitJoinsTheTally : Prop :=
  ∀ (s : State) (p : Pen) (arm : Arm) (k : Nat) (e : Entry) (hit : State),
    Strikes s p e hit → e.kind = .dot → e.origin = .cross p arm k → 1 ≤ k → k ≤ 4 →
    ∃ t, exec (.strike p) s = .next t ∧
      t = { hit with trackers := s.trackers.set p { s.tracker p with tally := (t.tracker p).tally } } ∧
      (((s.tracker p).state = .off ∨ (s.tracker p).stale = true) →
        (t.tracker p).tally = (s.tracker p).tally) ∧
      ((s.tracker p).state ≠ .off → (s.tracker p).stale = false →
        let set (y : Tally) : Arm → BitVec 4
          | .e => y.e
          | .w => y.w
          | .n => y.n
          | .s => y.s
        ∀ a j, j < 4 → ((set (t.tracker p).tally a).getLsbD j = true ↔
          (set (s.tracker p).tally a).getLsbD j = true ∨ (a = arm ∧ j + 1 = k)))

/-- What a pen strikes is the business of its own pen engine and tracker alone. -/
def Obligations.StrikeLeavesTheOtherPenAlone : Prop :=
  ∀ (s t : State) (p : Pen), exec (.strike p) s = .next t →
    t.pen (otherPen p) = s.pen (otherPen p) ∧ t.tracker (otherPen p) = s.tracker (otherPen p) ∧
      t.regions = s.regions ∧ t.menu = s.menu ∧ t.notices = s.notices ∧ t.segments = s.segments ∧
      t.supervisor = s.supervisor ∧ t.decoder = s.decoder ∧ t.link = s.link

/-- A tip down writes the tip record. In READY it starts an attempt: GATHERING in PRESS mode, REGION-WAIT in REGION
mode on a LOCKED tracker. In every other state, and in CONTINUOUS mode, it does nothing else.
A REGION tip down with the tracker not LOCKED ends at once MISS TRACK, with its notice offered. -/
def Obligations.TipDownStartsOrMisses : Prop :=
  (∀ (s : State) (p : Pen), (s.pen p).tip = .up →
    let started : PenEngine := { s.pen p with tip := .down, candidates := [], firstSeen := 0, frameCount := 0
                                              crowded := false }
    ((s.pen p).attempt = .ready → (s.pen p).record.mode = .press →
      exec (.tipDown p) s = .next { s with pens := s.pens.set p { started with attempt := .gathering } }) ∧
    ((s.pen p).attempt = .ready → (s.pen p).record.mode = .region → (s.tracker p).state = .locked →
      exec (.tipDown p) s = .next { s with
        pens := s.pens.set p { started with attempt := .regionWait }
        regions := { s.regions with tests := s.regions.tests.set p { s.regionTest p with phase := .waiting } } }) ∧
    ((s.pen p).attempt ≠ .ready ∨ (s.pen p).record.mode = .continuous →
      exec (.tipDown p) s = .next { s with pens := s.pens.set p { s.pen p with tip := .down } })) ∧
  (∀ (s : State) (p : Pen), (s.pen p).tip = .up → (s.pen p).attempt = .ready → (s.pen p).record.mode = .region →
    (s.tracker p).state ≠ .locked →
    ∃ t, exec (.tipDown p) s = .next t ∧
      t.pen p = { s.pen p with tip := .down, attempt := .settled none false, candidates := [], exclusions := []
                               firstSeen := 0, frameCount := 0, crowded := false, lastOutcome := .miss .track } ∧
      (Room s → t.notices = s.notices.enter (channelSet (s.pen p).record.channel) (some p) (.miss .track 0 0 false)) ∧
      (¬ Room s → t.notices = s.notices))

/-- A tip up, where no drag ends: in SETTLED the pen returns to READY in PRESS and REGION mode; in GATHERING in
PRESS mode, and in a region attempt, the attempt ends MISS RELEASED; in HOLDING the held outcome is kept, and in
CONTINUOUS mode only the tip record is written.
A tip up of a pen whose drag ends on release turns the tracker OFF, whatever the attempt state, drops its dots, and
makes a POSITION request with its position and FINAL, which goes as PositionRequestIsCoalesced says, after the pen
engine has taken the tip up. With no POSITION notice or claim of the pen and room, the notice is queued. -/
def Obligations.TipUpEndsAttemptOrDrag : Prop :=
  (∀ (s : State) (p : Pen), (s.pen p).tip = .down →
    ((s.tracker p).state = .off ∨ (s.tracker p).origin = .host ∨ (s.pen p).record.dragEnds = false) →
    (∀ k b, (s.pen p).attempt = .settled k b → (s.pen p).record.mode = .press ∨ (s.pen p).record.mode = .region →
      exec (.tipUp p) s = .next { s with pens := s.pens.set p { s.pen p with tip := .up, attempt := .ready } }) ∧
    (((s.pen p).attempt = .off ∨ (s.pen p).attempt = .ready ∨ (∃ o, (s.pen p).attempt = .holding o) ∨
        ((s.pen p).attempt = .gathering ∨ ∃ k b, (s.pen p).attempt = .settled k b) ∧
          (s.pen p).record.mode = .continuous) →
      exec (.tipUp p) s = .next { s with pens := s.pens.set p { s.pen p with tip := .up } }) ∧
    ((s.pen p).attempt = .gathering ∧ (s.pen p).record.mode = .press ∨ (s.pen p).attempt = .regionWait ∨
        (s.pen p).attempt = .regionCount →
      exec (.tipUp p) s = .next { s with
        pens := s.pens.set p { s.pen p with tip := .up, attempt := .ready, candidates := [], exclusions := []
                                            lastOutcome := .miss .released }
        rewrite := { s.rewrite with echo := s.rewrite.echo.set p none }
        regions := { s.regions with tests := s.regions.tests.set p { s.regionTest p with phase := .idle } }
        notices := if s.hasRoom then s.notices.enter (channelSet (s.pen p).record.channel) (some p)
            (.miss .released (s.pen p).frameCount (s.pen p).candidates.length (s.pen p).crowded)
          else s.notices })) ∧
  (∀ (s : State) (p : Pen), (s.pen p).tip = .down → (s.tracker p).state ≠ .off → (s.tracker p).origin = .drag →
    (s.pen p).record.dragEnds = true → (s.pen p).record.mode = .press →
    (∃ k b, (s.pen p).attempt = .settled k b) → Room s →
    (∀ n ∈ s.notices.queue, ∀ c, n.body = .position c → n.pen ≠ some p) →
    exec (.tipUp p) s = .next { s with
      pens := s.pens.set p { s.pen p with tip := .up, attempt := .ready }
      trackers := s.trackers.set p { s.tracker p with state := .off, missCount := 0, settle := false, stale := false
                                                      tally := ⟨0, 0, 0, 0⟩, lastReported := (s.tracker p).position }
      injection := s.injection.filter fun d => decide (d.pen ≠ p)
      notices := s.notices.enter (channelSet (s.pen p).record.channel) (some p)
        (.position { point := (s.tracker p).position, origin := .drag, final := true }) }) ∧
  (∀ (s : State) (p : Pen), (s.pen p).tip = .down → (s.tracker p).state ≠ .off → (s.tracker p).origin = .drag →
    (s.pen p).record.dragEnds = true →
    ∃ t, exec (.tipUp p) s = .next t ∧ (t.pen p).tip = .up ∧
      t.tracker p = { turnedOff (s.tracker p) with
        lastReported := (s.tracker p).position, positionClaim := (t.tracker p).positionClaim } ∧
      t.injection = s.injection.filter (fun d => decide (d.pen ≠ p)) ∧
      t = State.positionRequest { afterTipUp s p with
          trackers := s.trackers.set p (turnedOff (s.tracker p))
          injection := s.injection.filter fun d => decide (d.pen ≠ p) }
        p { point := (s.tracker p).position, origin := .drag, final := true }) ∧
  (∀ (s : State) (p : Pen), (s.pen p).tip = .down →
    ((s.tracker p).state = .off ∨ (s.tracker p).origin = .host ∨ (s.pen p).record.dragEnds = false) →
    exec (.tipUp p) s = .next (afterTipUp s p))

/-! ### The notice lane, grants and routing -/

/-- An accept steps the head's words accepted; its last word frees the entry. With no claim waiting, or no room
after the freeing, nothing else changes; with the queue empty an accept has no effect. -/
def Obligations.AcceptTakesOneWord : Prop :=
  ∀ (s : State) (n : Notice) (rest : List Notice),
    (s.notices.queue = [] → exec .noticeAccept s = .next s) ∧
    (s.notices.queue = n :: rest → n.accepted + 1 < n.length → exec .noticeAccept s =
      .next { s with notices := { s.notices with queue := { n with accepted := n.accepted + 1 } :: rest } }) ∧
    (LastWordDue s n rest → (NoClaims s ∨ 30 ≤ rest.length) →
      exec .noticeAccept s = .next { s with notices := { s.notices with queue := rest } })

/-- The grants that follow a freed entry are made within its accept, one at a time, each of the claim that is next to be
served, as long as room lasts: afterwards no more than 2 entries are free, or no claim waits that is not passed over.
They leave the link, the Flight List, the afterglow record and the cross dots as they were. -/
def Obligations.GrantsLastAsLongAsRoom : Prop :=
  ∀ (s : State) (n : Notice) (rest : List Notice), LastWordDue s n rest →
    ∃ t, exec .noticeAccept s = .next t ∧ GrantsFollow (freed s rest) t ∧
      (30 ≤ t.notices.queue.length ∨ ∀ c, ¬ Waiting t c) ∧
      t.link = s.link ∧ t.beam = s.beam ∧ t.injection = s.injection ∧ t.pending = s.pending ∧ t.draws = s.draws

/-- The grant of a tracker's claim or of the IDLE RETURN claim queues its notice with the claim's contents, routed
to the pen's default channel as it stands, and the claim becomes none; the further grants of the freed entry follow.
The model's choice (log 8): a grant command is the accept that frees the entry, where its claim is the first to be
granted, and changes nothing where no entry is freed or another claim is first. -/
def Obligations.ClaimGrants : Prop :=
  (∀ (s f : State) (p : Pen),
    (∀ c, GrantDue s (.track p) f → (f.tracker p).trackClaim = some c →
      ∃ t, exec (.trackClaimGrant p) s = .next t ∧ exec .noticeAccept s = .next t ∧ GrantsFollow { f with
        trackers := f.trackers.set p { f.tracker p with trackClaim := none }
        notices := f.notices.enter (channelSet (f.pen p).record.channel) (some p) (.track c) } t) ∧
    (∀ c, GrantDue s (.position p) f → (f.tracker p).positionClaim = some c →
      ∃ t, exec (.positionClaimGrant p) s = .next t ∧ exec .noticeAccept s = .next t ∧ GrantsFollow { f with
        trackers := f.trackers.set p { f.tracker p with positionClaim := none }
        notices := f.notices.enter (channelSet (f.pen p).record.channel) (some p) (.position c) } t) ∧
    (∀ c, GrantDue s .idleReturn f → f.menu.claim = some c →
      ∃ t, exec .idleReturnGrant s = .next t ∧ exec .noticeAccept s = .next t ∧ GrantsFollow { f with
        menu := { f.menu with claim := none }
        notices := f.notices.enter (channelSet (f.pen c.owner).record.channel) (some c.owner)
          (.idleReturn c.root c.topBefore c.depthBefore) } t)) ∧
  (∀ (s : State) (p : Pen),
    ((∀ f, ¬ GrantDue s .decoder f) → exec .decoderGrant s = .next s) ∧
    ((∀ f, ¬ GrantDue s (.penEngine p) f) → exec (.penGrant p) s = .next s) ∧
    ((∀ f, ¬ GrantDue s (.track p) f) → exec (.trackClaimGrant p) s = .next s) ∧
    ((∀ f, ¬ GrantDue s (.position p) f) → exec (.positionClaimGrant p) s = .next s) ∧
    ((∀ f, ¬ GrantDue s .idleReturn f) → exec .idleReturnGrant s = .next s))

/-- The grant of a held winner on a DRAWING or UNUSED segment delivers a PICK, marks the segment when MARK is on,
and seeds the pen's tracker when the image's drag field is yes; the further grants of the freed entry follow.
The model's choice (log 8): PEN_GRANT is the accept that frees the entry. -/
def Obligations.PenGrantDeliversAPick : Prop :=
  ∀ (s f : State) (p : Pen) (key : Key) (strike : Point) (cycled drag : Bool), GrantDue s (.penEngine p) f →
    (f.pen p).attempt = .holding (.winner key strike cycled) → 1 ≤ key.segment →
    (drag = true ∧ (∃ b, (f.image key.segment).kind = .drawing true b) ∨
      drag = false ∧ ((f.image key.segment).kind = .unused ∨ ∃ b, (f.image key.segment).kind = .drawing false b)) →
    ∃ t u, exec (.penGrant p) s = .next u ∧ exec .noticeAccept s = .next u ∧ GrantsFollow t u ∧
      DeliversPick { f with notices := { f.notices with lastPen := p } } p key strike cycled drag t

/-- The grant of a held winner on a MENU segment gives it to the Menu Unit, whose MENU notice is routed to the
item's channel, or to the pen's default channel when the item does not exist; the outcome is MENU, and the segment
is marked when MARK is on.
The grant of a held region queues its REGION notice, routed by the region's record as it stands. The further grants of
the freed entry follow.
The model's choice (log 8): PEN_GRANT is the accept that frees the entry. -/
def Obligations.PenGrantDeliversMenuPickOrRegion : Prop :=
  (∀ (s f : State) (p : Pen) (key : Key) (strike : Point) (cycled : Bool) (n k : Nat), GrantDue s (.penEngine p) f →
    (f.pen p).attempt = .holding (.winner key strike cycled) → (f.image key.segment).kind = .menu n k →
    ∃ t u, exec (.penGrant p) s = .next u ∧ exec .noticeAccept s = .next u ∧ GrantsFollow t u ∧
      DeliversMenu { f with notices := { f.notices with lastPen := p } } p key n k cycled t) ∧
  (∀ (s f : State) (p : Pen) (r : Nat) (point : Point) (saturated : Bool), GrantDue s (.penEngine p) f →
    (f.pen p).attempt = .holding (.region r point saturated) →
    ∃ u, exec (.penGrant p) s = .next u ∧ exec .noticeAccept s = .next u ∧ GrantsFollow { f with
      notices := ({ f.notices with lastPen := p }).enter (routeOf f p (f.regions.record r).route) (some p)
        (.region r point saturated)
      pens := f.pens.set p { f.pen p with attempt := afterDelivery (f.pen p) none, lastOutcome := .region } } u)

/-- The grant of the Control Decoder's claim lets the held order take effect on the state as it stands, and the
Decoder returns to IDLE: a QUERY is answered, a FORCE ITEM performs the action of an item that is shown on top, and is
refused with BAD VALUE where it is not. The further grants of the freed entry follow.
The model's choice (log 8): DECODER_GRANT is the accept that frees the entry. -/
def Obligations.DecoderGrantLetsTheOrderTakeEffect : Prop :=
  ∀ (s : State) (n : Notice) (rest : List Notice), LastWordDue s n rest → rest.length < 30 →
    let granted (t : State) : Prop :=
      ∃ u, exec .decoderGrant s = .next u ∧ exec .noticeAccept s = .next u ∧ GrantsFollow t u
    let idle : State := { freed s rest with decoder := { s.decoder with state := .idle } }
    (∀ subject ch ps reply, s.decoder.state = .held (queryCtrl subject ch ps) → replyOf idle ps subject = some reply →
      granted (answered idle subject ch reply)) ∧
    (∀ arg item, s.decoder.state = .held (ctrl 0x25 0 arg) → s.menu.stack.getLast? = some (field arg 4 5) →
      s.menu.item (field arg 4 5) (field arg 0 4) = some item →
      let r := s.menu.perform (field arg 4 5) (field arg 0 4) item
      let menu := if 2 ≤ r.1.stack.length then r.1 else { r.1 with owner := none, idleCounter := 0 }
      granted { idle with
        menu := menu
        notices := idle.notices.enter (channelSet item.channel) none
          (.menu (field arg 4 5) (field arg 0 4) r.2.1 r.2.2 menu.stack.length (menu.stack.getLastD 0) false false
            true) }) ∧
    (∀ arg, s.decoder.state = .held (ctrl 0x25 0 arg) → ¬ ShownOnTop s (field arg 4 5) (field arg 0 4) →
      granted (idle.raiseFault .badValue (ctrl 0x25 0 arg)))

/-- A notice enters at the tail with no word accepted. It takes channel 0 with REROUTED when no channel of its
route is present, else a present channel of the route: without ALL one of the lowest level, the tie broken by the
LRU order, or by the number under FIRST. The channel moves to the most-recent end of the LRU order. -/
def Obligations.NoticeIsRoutedAsItEnters : Prop :=
  ∀ (u : NoticeUnit) (route : BitVec 4) (pen : Option Pen) (body : NoticeBody), u.lru.Perm [0, 1, 2, 3] →
    ∃ c rerouted, u.enter route pen body = { u with
        queue := u.queue ++ [{ body := body, channel := c, pen := pen, rerouted := rerouted, accepted := 0 }]
        lru := (u.lru.filter fun d => decide (d ≠ c)) ++ [c] } ∧
      let Kept (d : Nat) : Prop := d ≤ 3 ∧ route.getLsbD d = true ∧ (d = 0 ∨ u.present.getLsbD d = true)
      let level (d : Nat) : Nat := Table.read 0 u.levels d
      (rerouted = true ↔ ∀ d, ¬ Kept d) ∧ (rerouted = true → c = 0) ∧
      (rerouted = false → Kept c ∧ (u.all = false → ∀ d, Kept d → level c ≤ level d) ∧
        ∀ d, Kept d → (u.all = true ∨ level d = level c) →
          (u.tieFirst = true → c ≤ d) ∧ (u.tieFirst = false → u.lru.idxOf c ≤ u.lru.idxOf d))

/-- The words of a notice: 1 to 4, the header first, with the kind code, the channel, the pen, the payload count
and REROUTED in the bits that R181 gives them, the kind's own content in bits 20:0, and the payload words of the kind.
In the reply to QUERY PEN the candidate count and the exclusion list fill the three payload words.
While the queue is not empty, the lane presents the head's next word; while it is empty, none.
The model's choices: the tip code of the PEN reply (log 22), the first fault kind when there is no first fault
(log 23), the grain bit of an UNUSED image (log 14), and the page and item of an ITEM reply (log 18). -/
def Obligations.HeaderWordHoldsItsFields : Prop :=
  (∀ n : Notice, n.channel ≤ 3 →
    n.words = n.headerWord :: n.body.payload ∧ 1 ≤ n.length ∧ n.length ≤ 4 ∧
      field n.headerWord 28 4 = noticeCode n.body ∧ field n.headerWord 26 2 = n.channel ∧
      field n.headerWord 24 2 = (match n.pen with
        | some .a => 0
        | some .b => 1
        | none => 3) ∧
      field n.headerWord 22 2 = n.body.payload.length ∧ n.headerWord.getLsbD 21 = n.rerouted) ∧
  (∀ n : Notice, n.channel ≤ 3 →
    Holds n.headerWord ([(28, 4, noticeCode n.body), (26, 2, n.channel),
      (24, 2, match n.pen with
        | some .a => 0
        | some .b => 1
        | none => 3),
      (22, 2, n.body.payload.length), (21, 1, n.rerouted.toNat)] ++ contentFields n.body) ∧
    ((∀ p e, n.body ≠ .reply (.pen p e)) → List.Forall₂ Holds n.body.payload (payloadFields n.body))) ∧
  (∀ (p : Pen) (e : PenStatus), e.candidates ≤ 15 → e.exclusions.length ≤ 4 →
    (∀ k ∈ e.exclusions, k.segment ≤ 1023 ∧ ∀ n, k.element = .ordinal n → n ≤ 4095) →
    ∃ w1 w2 w3 : Word, (NoticeBody.reply (.pen p e)).payload = [w1, w2, w3] ∧
      w1.toNat * 2 ^ 64 + w2.toNat * 2 ^ 32 + w3.toNat =
        e.candidates * 2 ^ 92 + (e.exclusions.mapIdx fun i k => keyNumber k * 2 ^ (23 * (3 - i))).sum) ∧
  (∀ s : State, (s.notices.queue = [] → s.presentedWord = none) ∧
    ∀ n rest, s.notices.queue = n :: rest → s.presentedWord = n.words[n.accepted]?)

/-- Each fault adds its kind to the sticky set and becomes the first fault where there is none. Its FAULT notice,
routed to channel 0, enters while an entry is free; else NOTICE-LOST is set. -/
def Obligations.FaultIsRecorded : Prop :=
  ∀ (s : State) (kind : FaultKind) (context : Word),
    let code := match kind with
      | .badOrder => 0
      | .badControl => 1
      | .badValue => 2
      | .badIndex => 3
      | .spuriousRetire => 4
      | .stall => 5
    let sticky := s.supervisor.sticky ||| BitVec.ofNat 6 (2 ^ code)
    let first := if s.supervisor.first = none then some (kind, context) else s.supervisor.first
    (s.notices.queue.length < 32 → s.raiseFault kind context = { s with
      supervisor := { s.supervisor with sticky := sticky, first := first }
      notices := s.notices.enter 1#4 none
        (.fault kind context (decide (s.supervisor.first = none)) s.supervisor.lost sticky) }) ∧
    (32 ≤ s.notices.queue.length → s.raiseFault kind context = { s with
      supervisor := { s.supervisor with sticky := sticky, first := first, lost := true } })

/-! ### Control orders -/

/-- SEG CURSOR sets the cursor and clears the end flag for 1..1023; any other value is refused.
BLINK RATE writes the half-period and clears the counter; the phase keeps its value. A half-period 0 is
refused.
KEEP TABLES sets the flag with 1 and clears it with 0; any other argument is refused.
CHANNEL PRESENT, CHANNEL LEVEL and ROUTE MODE write the Channel Table and the route options; channel 0 stays
present, and the LRU order is not touched. -/
def Obligations.RegisterOrdersWriteTheirRegister : Prop :=
  (∀ (s : State) (arg : Arg), Listens s → exec (.segCursor arg) s = .next
    (if 1 ≤ arg.toNat ∧ arg.toNat ≤ 1023 then
      { s with decoder := { s.decoder with cursor := arg.toNat, endFlag := false } }
    else s.raiseFault .badValue (ctrl 0x01 0 arg))) ∧
  (∀ (s : State) (arg : Arg), Listens s → exec (.blinkRate arg) s = .next
    (if field arg 0 4 = 0 then s.raiseFault .badValue (ctrl 0x50 0 arg)
    else { s with rewrite := { s.rewrite with halfPeriod := field arg 0 4, counter := 0 } })) ∧
  (∀ (s : State) (arg : Arg), Listens s → exec (.keepTables arg) s = .next
    (if arg = 0#16 then { s with decoder := { s.decoder with keep := false } }
    else if arg = 1#16 then { s with decoder := { s.decoder with keep := true } }
    else s.raiseFault .badValue (ctrl 0x70 0 arg))) ∧
  (∀ (s : State) (arg : Arg), Listens s →
    exec (.channelPresent arg) s =
      .next { s with notices := { s.notices with present := arg.extractLsb' 0 4 ||| 1#4 } } ∧
    (∃ t, exec (.channelLevel arg) s = .next t ∧
      t = { s with notices := { s.notices with levels := t.notices.levels } } ∧
      ∀ c, Table.read 0 t.notices.levels c =
        if c = field arg 4 2 then field arg 0 4 else Table.read 0 s.notices.levels c) ∧
    exec (.routeMode arg) s =
      .next { s with notices := { s.notices with tieFirst := arg.getLsbD 1, all := arg.getLsbD 0 } })

/-- A load in range writes its images at the cursor, one after another up to segment 1023: SEG LOAD into the
pending images, SEG LOAD NOW into the current ones, discarding the pending. An image past segment 1023 is discarded
and BAD INDEX raised once. The images are read from their words by the fields of R179.
A load with an image out of range, of the reserved kind or a MENU item 12..15, is refused whole. -/
def Obligations.LoadsWriteTheirImagesOrAreRefused : Prop :=
  (∀ (s : State) (arg : Arg) (words : List (Word × Word)) (imgs : List Image) (now : Bool), Listens s →
    1 ≤ words.length → words.length ≤ 7 → words.map imageOfWords = imgs.map some →
    1 ≤ s.decoder.cursor → s.decoder.cursor ≤ 1023 →
    let room := if s.decoder.endFlag = true then 0 else 1024 - s.decoder.cursor
    let written := min imgs.length room
    ∃ u, exec (if now = true then .segLoadNow arg words else .segLoad arg words) s = .next
        (if room < imgs.length then
          u.raiseFault .badIndex (ctrl (if now = true then 0x03 else 0x02) (2 * words.length) arg)
        else u) ∧
      u = { s with segments := u.segments, decoder := u.decoder } ∧
      u.decoder = { s.decoder with
        cursor := min 1023 (s.decoder.cursor + written)
        endFlag := s.decoder.endFlag || decide (written = room) } ∧
      (∀ k img, k < written → imgs[k]? = some img → u.segEntry (s.decoder.cursor + k) =
        if now = true then { current := img, staged := none }
        else { s.segEntry (s.decoder.cursor + k) with staged := some img }) ∧
      (∀ n, (n < s.decoder.cursor ∨ s.decoder.cursor + written ≤ n) → u.segEntry n = s.segEntry n)) ∧
  (∀ (s : State) (arg : Arg) (words : List (Word × Word)), Listens s → 1 ≤ words.length → words.length ≤ 7 →
    (∃ w ∈ words, field w.1 30 2 = 3 ∨ (field w.1 30 2 = 2 ∧ 12 ≤ field w.2 0 4)) →
    exec (.segLoad arg words) s = .next (s.raiseFault .badValue (ctrl 0x02 (2 * words.length) arg)) ∧
    exec (.segLoadNow arg words) s = .next (s.raiseFault .badValue (ctrl 0x03 (2 * words.length) arg)))

/-- SEG SHOW writes a display value into both images of every entry of its run, and into nothing else; a run out of
1..1023 or out of order is refused. -/
def Obligations.SegShowWritesTheRun : Prop :=
  ∀ (s : State) (arg : Arg) (run : Word), Listens s →
    let first := field run 16 16
    let last := field run 0 16
    let display : Display := if field arg 0 2 = 0 then .normal else if field arg 0 2 = 1 then .highlight
      else if field arg 0 2 = 2 then .blink else .blank
    (1 ≤ first → last ≤ 1023 → first ≤ last → ∃ t, exec (.segShow arg run) s = .next t ∧
      t = { s with segments := t.segments } ∧ ∀ n, t.segEntry n =
        if first ≤ n ∧ n ≤ last then
          { current := { (s.segEntry n).current with display := display }
            staged := (s.segEntry n).staged.map fun img => { img with display := display } }
        else s.segEntry n) ∧
    (¬ (1 ≤ first ∧ last ≤ 1023 ∧ first ≤ last) →
      exec (.segShow arg run) s = .next (s.raiseFault .badValue (ctrl 0x04 1 arg)))

/-- REGION LOAD replaces one record in every field; region 0 is refused.
PAGE LOAD replaces a page record whole, its items read from their words by the fields of R179. A valid page with item
count 0 or 13..15, or with an item of a reserved code, is refused; a data count other than the item count is BAD
CONTROL. -/
def Obligations.RecordLoadsReplaceTheRecord : Prop :=
  (∀ (s : State) (arg : Arg) (w : Word), Listens s →
    (field arg 0 6 ≠ 0 → ∃ t, exec (.regionLoad arg w) s = .next t ∧
      t = { s with regions := { s.regions with records := t.regions.records } } ∧
      ∀ r, t.regions.record r = if r = field arg 0 6 then
          { enabled := w.getLsbD 9, rule := if w.getLsbD 8 = true then .nonzero else .evenOdd
            priority := field w 4 4, route := w.extractLsb' 0 4 }
        else s.regions.record r) ∧
    (field arg 0 6 = 0 → exec (.regionLoad arg w) s = .next (s.raiseFault .badValue (ctrl 0x10 1 arg)))) ∧
  (∀ (s : State) (arg : Arg) (words : List Word), Listens s → words.length ≤ 15 →
    let count := if arg.getLsbD 10 = true then field arg 0 4 else 0
    let refused := s.raiseFault .badValue (ctrl 0x20 words.length arg)
    (words.length ≠ count →
      exec (.pageLoad arg words) s = .next (s.raiseFault .badControl (ctrl 0x20 words.length arg))) ∧
    (∀ record : PageRecord, words.length = count →
      (arg.getLsbD 10 = true ∧ 1 ≤ count ∧ count ≤ 12 ∧ record.valid = true ∧
          words.map itemOfWord = record.items.map some ∨
        arg.getLsbD 10 = false ∧ record = { valid := false, items := [] }) →
      ∃ t, exec (.pageLoad arg words) s = .next t ∧ t = { s with menu := { s.menu with pages := t.menu.pages } } ∧
        ∀ n, t.menu.page n = if n = field arg 11 5 then record else s.menu.page n) ∧
    (words.length = count → arg.getLsbD 10 = true → (count = 0 ∨ 12 < count ∨ ∃ w ∈ words, itemOfWord w = none) →
      exec (.pageLoad arg words) s = .next refused))

/-- MENU ROOT, MENU CLOSE, MENU UNLOCK and MENU IDLE write the stack, the lock, the idle counter and the limit. -/
def Obligations.MenuOrdersWriteTheMenu : Prop :=
  ∀ (s : State) (arg : Arg), Listens s →
    exec (.menuRoot arg) s = .next { s with menu := { s.menu with
      stack := [field arg 0 5], owner := none, idleCounter := 0 } } ∧
    exec (.menuClose arg) s = .next { s with menu := { s.menu with stack := [], owner := none, idleCounter := 0 } } ∧
    exec (.menuUnlock arg) s = .next { s with menu := { s.menu with owner := none, idleCounter := 0 } } ∧
    exec (.menuIdle arg) s = .next { s with menu := { s.menu with idleLimit := field arg 0 8, idleCounter := 0 } }

/-- A menu pick is refused LOCKED while the other pen owns the lock, else refused STALE unless its page is the top
and its item exists; else it reaches its action, and the lock follows the depth.
The actions of an item: DESCEND, ASCEND, COMMAND and TOGGLE with their results, values and after-actions. -/
def Obligations.MenuPickIsJudgedAndActs : Prop :=
  (∀ (u : MenuUnit) (p : Pen) (n k : Nat),
    (u.owner = some (otherPen p) → u.pick p n k = (u, .refusedLocked, 0)) ∧
    (u.owner ≠ some (otherPen p) → (u.stack.getLast? ≠ some n ∨ u.item n k = none) →
      u.pick p n k = (u, .refusedStale, 0)) ∧
    (∀ item, u.owner ≠ some (otherPen p) → u.stack.getLast? = some n → u.item n k = some item →
      let r := u.perform n k item
      u.pick p n k = ({ r.1 with owner := if 2 ≤ r.1.stack.length then some p else none, idleCounter := 0 }, r.2))) ∧
  (∀ (u : MenuUnit) (n k : Nat) (item : Item), (u.page n).valid = true → (u.page n).items[k]? = some item →
    let popped := if 2 ≤ u.stack.length then u.stack.dropLast else u.stack
    let after : AfterAction → List Nat
      | .stay => u.stack
      | .ascend => popped
      | .root => u.stack.take 1
    (∀ t, item.action = .descend t → u.perform n k item =
      if 6 ≤ u.stack.length then (u, .refusedFull, t)
      else if t ∈ u.stack then (u, .refusedLoop, t)
      else if (u.page t).valid = false then (u, .refusedEmpty, t)
      else ({ u with stack := u.stack ++ [t] }, .descended, t)) ∧
    (item.action = .ascend → u.perform n k item =
      if 2 ≤ u.stack.length then ({ u with stack := u.stack.dropLast }, .ascended, 0) else (u, .noChange, 0)) ∧
    (∀ code a, item.action = .command code a →
      u.perform n k item = ({ u with stack := after a }, .command, code)) ∧
    (∀ a, item.action = .toggle a →
      u.perform n k item = ({ u with stack := after a, pages := (u.perform n k item).1.pages }, .toggled,
          if item.toggle = true then 0 else 1) ∧
        ∀ m, (u.perform n k item).1.page m = if m = n then
            { u.page n with items := (u.page n).items.set k { item with toggle := !item.toggle } }
          else u.page m))

/-- FORCE ITEM, with room and an item shown on top, performs the item's action without taking the lock, and queues
the MENU notice with FORCED on the item's channel; an item that is not there is refused, and without room the order
is held. -/
def Obligations.ForceItemPerformsTheAction : Prop :=
  ∀ (s : State) (arg : Arg), Listens s →
    let n := field arg 4 5
    let k := field arg 0 4
    (∀ item, Room s → k < 12 → s.menu.stack.getLast? = some n → s.menu.item n k = some item →
      let r := s.menu.perform n k item
      let menu := if 2 ≤ r.1.stack.length then r.1 else { r.1 with owner := none, idleCounter := 0 }
      exec (.forceItem arg) s = .next { s with
        menu := menu
        notices := s.notices.enter (channelSet item.channel) none
          (.menu n k r.2.1 r.2.2 menu.stack.length (menu.stack.getLastD 0) false false true) }) ∧
    (12 ≤ k ∨ Room s ∧ ¬ ShownOnTop s n k →
      exec (.forceItem arg) s = .next (s.raiseFault .badValue (ctrl 0x25 0 arg))) ∧
    (k < 12 → ¬ Room s → exec (.forceItem arg) s =
      .next { s with decoder := { s.decoder with state := .held (ctrl 0x25 0 arg) } })

/-- An accepted PEN MODE with a mode other than OFF ends the attempt in progress (MISS ABORTED with its notice
offered, or a held outcome DISCARDED), writes the record, empties both lists, clears the echo and enters READY.
While the tip is down an attempt then starts at once: PRESS gathers, REGION waits on a LOCKED tracker, and ends MISS
TRACK on any other. -/
def Obligations.PenModeEndsAndRestartsTheAttempt : Prop :=
  ∀ (s : State) (arg : Arg) (w : Word), Listens s →
    let p := penOf arg
    let record := modeRecord (s.pen p).record.fence arg w
    record.w ≠ 0 → record.w ≤ 8 → record.c ≠ 0 → record.c ≤ record.w → record.span ≠ 0 →
    let changed (e : PenEngine) : State := afterMode s p { e with record := record }
    let restarted (attempt : AttemptState) : PenEngine :=
      { s.pen p with attempt := attempt, firstSeen := 0, frameCount := 0, crowded := false }
    let phase (ph : TestPhase) : RegionUnit :=
      { s.regions with tests := s.regions.tests.set p { s.regionTest p with phase := ph } }
    (record.mode ≠ .off → ((s.pen p).tip = .up ∨ record.mode = .continuous) →
      exec (.penMode arg w) s = .next (changed { s.pen p with attempt := .ready })) ∧
    (record.mode = .press → (s.pen p).tip = .down →
      exec (.penMode arg w) s = .next (changed (restarted .gathering))) ∧
    (record.mode = .region → (s.pen p).tip = .down → (s.tracker p).state = .locked →
      exec (.penMode arg w) s = .next { changed (restarted .regionWait) with regions := phase .waiting }) ∧
    (record.mode = .region → (s.pen p).tip = .down → (s.tracker p).state ≠ .locked →
      let u := changed (restarted (.settled none false))
      exec (.penMode arg w) s = .next { u with
        pens := u.pens.set p { u.pen p with lastOutcome := .miss .track }
        regions := phase .idle
        notices := if u.hasRoom then u.notices.enter (channelSet record.channel) (some p) (.miss .track 0 0 false)
          else u.notices })

/-- An accepted PEN MODE OFF ends the attempt in progress as any PEN MODE does, turns the pen and its tracker OFF,
withdraws the tracker's claims, drops its dots and releases the menu lock if the pen holds it.
The model's choice (log 13): the MISS ABORTED notice is offered before the tracker's claims are withdrawn.
PEN MODE is refused when W is 0 or above 8, C is 0 or above W, or span is 0. -/
def Obligations.PenModeOffOrRefused : Prop :=
  (∀ (s : State) (arg : Arg) (w : Word), Listens s →
    let p := penOf arg
    let record := modeRecord (s.pen p).record.fence arg w
    record.w ≠ 0 → record.w ≤ 8 → record.c ≠ 0 → record.c ≤ record.w → record.span ≠ 0 → record.mode = .off →
    exec (.penMode arg w) s = .next { afterMode s p { s.pen p with record := record, attempt := .off } with
      trackers := s.trackers.set p { s.tracker p with
        state := .off, missCount := 0, settle := false, stale := false, tally := ⟨0, 0, 0, 0⟩, trackClaim := none
        positionClaim := none }
      injection := s.injection.filter fun d => decide (d.pen ≠ p)
      menu := if s.menu.owner = some p then { s.menu with owner := none, idleCounter := 0 } else s.menu }) ∧
  (∀ (s : State) (arg : Arg) (w : Word), Listens s →
    (field w 12 4 = 0 ∨ 9 ≤ field w 12 4 ∨ field w 8 4 = 0 ∨ field w 12 4 < field w 8 4 ∨ field w 0 6 = 0) →
    exec (.penMode arg w) s = .next (s.raiseFault .badValue (ctrl 0x30 1 arg)))

/-- PEN FENCE replaces the fence record of a pen and nothing else; a FIXED rectangle out of order, a half-width 0
and the reserved fence mode are refused.
PEN CLEAR EXCLUSIONS empties the named pen's exclusion list and touches nothing else, whatever the pen's mode
and attempt state. -/
def Obligations.PenOrdersWriteFenceAndExclusions : Prop :=
  (∀ (s : State) (arg : Arg) (w1 w2 : Word), Listens s →
    let p := penOf arg
    let with_ (fence : Fence) : State := { s with pens := s.pens.set p { s.pen p with
      record := { (s.pen p).record with fence := fence } } }
    let refused := s.raiseFault .badValue (ctrl 0x31 2 arg)
    (field arg 0 2 = 0 → exec (.penFence arg w1 w2) s = .next (with_ .none)) ∧
    (field arg 0 2 = 1 → exec (.penFence arg w1 w2) s = .next
      (if field w1 0 12 < field w1 16 12 ∨ field w2 0 12 < field w2 16 12 then refused
      else with_ (.fixed (field w1 16 12) (field w1 0 12) (field w2 16 12) (field w2 0 12)))) ∧
    (field arg 0 2 = 2 → exec (.penFence arg w1 w2) s = .next
      (if field w1 16 10 = 0 ∨ field w1 0 10 = 0 then refused
      else with_ (.follow (field w1 16 10) (field w1 0 10)))) ∧
    (field arg 0 2 = 3 → exec (.penFence arg w1 w2) s = .next refused)) ∧
  (∀ (s : State) (arg : Arg), Listens s → exec (.penClearExclusions arg) s =
    .next { s with pens := s.pens.set (penOf arg) { s.pen (penOf arg) with exclusions := [] } })

/-- TRACK SET writes the tracker's record, its claims kept; it is refused when the pen's mode is OFF, the pitch is
out of 2..64 or the coast limit is 0. A region attempt resting on the lock ends MISS TRACK, with its notice offered.
TRACK OFF turns the tracker OFF, withdraws its claims and drops its remaining dots; its other fields keep their
values, and a region attempt resting on the lock ends MISS TRACK, with its notice offered.
The model's choice (log 13): at TRACK OFF the claims are withdrawn before the notice is offered. -/
def Obligations.TrackOrdersWriteTheTracker : Prop :=
  (∀ (s : State) (arg : Arg) (w : Word), Listens s →
    let p := penOf arg
    let accepted := (s.pen p).record.mode ≠ .off ∧ 2 ≤ field arg 8 7 ∧ field arg 8 7 ≤ 64 ∧ field arg 0 4 ≠ 0
    let written : State := { s with trackers := s.trackers.set p { s.tracker p with
      state := .seeking, position := ⟨field w 16 12, field w 0 12⟩, pitch := field arg 8 7, coastLimit := field arg 0 4
      missCount := 0, settle := true, stale := true, origin := .host, tally := ⟨0, 0, 0, 0⟩
      lastReported := ⟨field w 16 12, field w 0 12⟩ } }
    (accepted → ((s.tracker p).state ≠ .locked ∨
        ((s.pen p).attempt ≠ .regionWait ∧ (s.pen p).attempt ≠ .regionCount)) →
      exec (.trackSet arg w) s = .next written) ∧
    (accepted → (s.tracker p).state = .locked →
      ((s.pen p).attempt = .regionWait ∨ (s.pen p).attempt = .regionCount) →
      exec (.trackSet arg w) s = .next (afterMiss written p (s.pen p) .track (.settled none false))) ∧
    (¬ accepted → exec (.trackSet arg w) s = .next (s.raiseFault .badValue (ctrl 0x40 1 arg)))) ∧
  (∀ (s : State) (arg : Arg), Listens s →
    let p := penOf arg
    let off : State := { s with
      trackers := s.trackers.set p { turnedOff (s.tracker p) with trackClaim := none, positionClaim := none }
      injection := s.injection.filter fun d => decide (d.pen ≠ p) }
    (((s.tracker p).state ≠ .locked ∨ ((s.pen p).attempt ≠ .regionWait ∧ (s.pen p).attempt ≠ .regionCount)) →
      exec (.trackOff arg) s = .next off) ∧
    ((s.tracker p).state = .locked → ((s.pen p).attempt = .regionWait ∨ (s.pen p).attempt = .regionCount) →
      exec (.trackOff arg) s = .next (afterMiss off p (s.pen p) .track (.settled none false))))

/-- FRAME TIMEOUT writes the setting; the timer runs with the full new timeout, or is OFF with the setting 0, and
stays STALLED while it is. -/
def Obligations.FrameTimeoutSetsTheTimer : Prop :=
  ∀ (s : State) (arg : Arg), Listens s → exec (.frameTimeout arg) s = .next { s with
    supervisor := { s.supervisor with
      setting := field arg 0 8
      timer := if s.supervisor.timer = .stalled then .stalled
        else if field arg 0 8 = 0 then .off else .running (10 * field arg 0 8) } }

/-- With room and no claim waiting, a QUERY that is in range is answered at once: its REPLY, built from the state
as it stands, enters on the named channel alone, and nothing else changes but that QUERY FAULTS clears the fault
record.
Without room, or while a claim waits, a QUERY that is in range is held; one that is out of range is refused
without a claim. -/
def Obligations.QueryIsAnsweredHeldOrRefused : Prop :=
  (∀ (s : State) (ch : BitVec 2) (ps : BitVec 10), Listens s → Room s →
    ∀ q ∈ queries ch ps, q.2.2 = false →
      ∃ reply, replyOf s ps q.1 = some reply ∧ exec q.2.1 s = .next (answered s q.1 ch reply)) ∧
  (∀ (s : State) (ch : BitVec 2) (ps : BitVec 10), Listens s → ∀ q ∈ queries ch ps,
    (q.2.2 = false → ¬ Room s → exec q.2.1 s =
      .next { s with decoder := { s.decoder with state := .held (queryCtrl q.1 ch ps) } }) ∧
    (q.2.2 = true → exec q.2.1 s = .next (s.raiseFault .badValue (queryCtrl q.1 ch ps))))

/-! ### Time -/

/-- An expiry enters STALLED and raises STALL; an attempt in GATHERING or in a region attempt ends MISS STALLED and
enters READY, and a held outcome is kept; a LOCKED or COASTING tracker becomes SEEKING and requests TRACK LOST. The
order in which the blocks take it (log 5) makes no difference to this.
The STALL FAULT notice is offered first, as FaultIsRecorded says. Then each pen engine and each tracker takes the expiry
once, a pen's engine before its tracker, in the order that the command gives (log 5). A pen engine that misses offers its
MISS STALLED notice, and a tracker makes its TRACK LOST request, each with the room that the blocks before it have left.
A timer that is OFF or STALLED does not run, so it does not expire (log 7). -/
def Obligations.ExpiryOfARunningTimer : Prop :=
  (∀ (s : State) (order : List Pen) (ms : Nat), s.supervisor.timer = .running ms → s.beam.flight.length ≤ 8 →
    s.supervisor.setting ≤ 255 →
    ∃ t, exec (.frameTimerExpiry order) s = .next t ∧ t.supervisor.timer = .stalled ∧
      t.supervisor.setting = s.supervisor.setting ∧ t.supervisor.sticky = s.supervisor.sticky ||| 0x20#6 ∧
      t.supervisor.first = (if s.supervisor.first = none then some (.stall, stallWord s) else s.supervisor.first) ∧
      t.link = s.link ∧ t.beam = s.beam ∧ t.segments = s.segments ∧ t.injection = s.injection ∧ t.menu = s.menu ∧
      t.decoder = s.decoder ∧ t.regions.records = s.regions.records ∧
      ∀ p,
        t.pen p = (if (s.pen p).attempt = .gathering ∨ (s.pen p).attempt = .regionWait ∨
            (s.pen p).attempt = .regionCount then
          { s.pen p with attempt := .ready, candidates := [], exclusions := [], lastOutcome := .miss .stalled }
          else s.pen p) ∧
        ((s.tracker p).state = .locked ∨ (s.tracker p).state = .coasting →
          t.tracker p = { s.tracker p with state := .seeking, missCount := 0, tally := ⟨0, 0, 0, 0⟩
                                           trackClaim := (t.tracker p).trackClaim } ∧
          ((t.tracker p).trackClaim = none ∧ (∃ n ∈ t.notices.queue, n.pen = some p ∧ n.body = .track
              { event := .lost, point := (s.tracker p).position, origin := (s.tracker p).origin }) ∨
            (t.tracker p).trackClaim = some { event := .lost, point := (s.tracker p).position
                                              origin := (s.tracker p).origin })) ∧
        ((s.tracker p).state = .off ∨ (s.tracker p).state = .seeking → t.tracker p = s.tracker p)) ∧
  (∀ (s : State) (order : List Pen) (ms : Nat), s.supervisor.timer = .running ms → s.beam.flight.length ≤ 8 →
    s.supervisor.setting ≤ 255 →
    ∃ blocks : List CloseBlock, blocks.Perm [.penEngine .a, .penEngine .b, .tracker .a, .tracker .b] ∧
      (∀ p, [CloseBlock.penEngine p, .tracker p].Sublist blocks) ∧
      (order.Perm [.a, .a, .b, .b] → order = blocks.map fun b =>
        match b with
        | .penEngine p => p
        | .tracker p => p) ∧
      exec (.frameTimerExpiry order) s = .next (blocks.foldl State.blockExpiry
        (({ s with supervisor := { s.supervisor with timer := .stalled } }).raiseFault .stall (stallWord s)))) ∧
  (∀ (s : State) (p : Pen),
    let u := s.tracker p
    let sought : State := afterTrackRequest { s with
        trackers := s.trackers.set p { u with state := .seeking, missCount := 0, tally := ⟨0, 0, 0, 0⟩ } }
      p { event := .lost, point := u.position, origin := u.origin }
    s.blockExpiry (.penEngine p) =
      (if (s.pen p).attempt = .gathering ∨ (s.pen p).attempt = .regionWait ∨ (s.pen p).attempt = .regionCount then
        afterMiss s p (s.pen p) .stalled .ready
      else s) ∧
    s.blockExpiry (.tracker p) =
      (if u.state = .locked then afterUnlock sought p else if u.state = .coasting then sought else s)) ∧
  (∀ (s : State) (order : List Pen), s.supervisor.timer = .off ∨ s.supervisor.timer = .stalled →
    exec (.frameTimerExpiry order) s = .next s)

/-! ### The laws -/

/-- The laws of the blocks hold right after power-on. That every table is in its canonical form (TableLaw) is no law of
a block but the model's choice (log 16). -/
def Obligations.LawsHoldAtReset : Prop :=
  State.reset.TrackerLaw ∧ State.reset.ListLaw ∧ State.reset.PenLaw ∧ State.reset.WindingLaw ∧
    State.reset.MenuLaw ∧ State.reset.TableLaw ∧ State.reset.QueueLaw ∧ State.reset.LruLaw ∧
    State.reset.DecoderLaw ∧ State.reset.SupervisorLaw

/-- Every step keeps the beam position, every recorded point and the tracker records in their ranges, and at most 8
entries in the Flight List. The points that wait in claims and in queued notices are among them. -/
def Obligations.StepKeepsThePositions : Prop :=
  ∀ s t : State, s.TrackerLaw → step s = .next t → t.TrackerLaw

/-- Every step keeps the candidate and exclusion lists within their bounds, no key twice. The premise PenLaw, which
StepKeepsThePens keeps, rules out a region test that runs while its pen gathers. -/
def Obligations.StepKeepsTheLists : Prop :=
  ∀ s t : State, s.ListLaw → s.PenLaw → step s = .next t → t.ListLaw

/-- Every step keeps the law of the OFF pen, the agreement of the test phases with the attempt states, and the law
of the menu lock. -/
def Obligations.StepKeepsThePens : Prop := ∀ s t : State, s.PenLaw → step s = .next t → t.PenLaw

/-- Every step keeps the winding counters in their range, the Page Stack and the page records within their bounds,
and every table in its canonical form. The canonical form is the model's choice (log 16). -/
def Obligations.StepKeepsTheTables : Prop :=
  ∀ s t : State, s.WindingLaw → s.MenuLaw → s.TableLaw → step s = .next t →
    t.WindingLaw ∧ t.MenuLaw ∧ t.TableLaw

/-- Every step keeps the Notice Queue within 32 notices, 30 that are not FAULT notices and one POSITION notice of each
pen, words accepted of the head alone, and the LRU order a permutation of the channels. -/
def Obligations.StepKeepsTheQueue : Prop :=
  ∀ s t : State, s.QueueLaw → s.LruLaw → step s = .next t → t.QueueLaw ∧ t.LruLaw

/-- Every step keeps what the Decoder state says of the upstream input, the cursor in its range, and the frame
timer and the fault record consistent. -/
def Obligations.StepKeepsTheDecoder : Prop :=
  ∀ s t : State, s.DecoderLaw → s.SupervisorLaw → step s = .next t → t.DecoderLaw ∧ t.SupervisorLaw
end

