-- ==== Sys2Proof/Laws/State.lean ====
section
/-! SUPPORT. One lemma for each field of the state and each named update of it, so that no later proof unfolds
a record update; and what the updates of one pen leave of the other. -/

namespace Sys2Proof.Machine

/-! ### Pairs -/

@[simp] theorem Pair.get_set_same {α : Type} (x : Pair α) (p : Pen) (v : α) : (x.set p v).get p = v := by
  cases p <;> rfl

@[simp] theorem Pair.get_set_other {α : Type} (x : Pair α) {p q : Pen} (h : q ≠ p) (v : α) :
    (x.set p v).get q = x.get q := by
  cases p <;> cases q <;> first | rfl | exact absurd rfl h

@[simp] theorem Pair.set_get {α : Type} (x : Pair α) (p : Pen) : x.set p (x.get p) = x := by
  cases p <;> rfl

@[simp] theorem Pair.set_set {α : Type} (x : Pair α) (p : Pen) (u v : α) : (x.set p u).set p v = x.set p v := by
  cases p <;> rfl

theorem Pair.ext_get {α : Type} {x y : Pair α} (h : ∀ p, x.get p = y.get p) : x = y := by
  cases x; cases y
  have ha := h .a
  have hb := h .b
  simp_all [Pair.get]

theorem otherPen_ne (p : Pen) : otherPen p ≠ p := by cases p <;> decide

/-! ### Field by field -/

section
variable (s : State) (p : Pen) (v : PenEngine)
@[simp] theorem State.setPen_link : (s.setPen p v).link = s.link := rfl
@[simp] theorem State.setPen_beam : (s.setPen p v).beam = s.beam := rfl
@[simp] theorem State.setPen_segments : (s.setPen p v).segments = s.segments := rfl
@[simp] theorem State.setPen_rewrite : (s.setPen p v).rewrite = s.rewrite := rfl
@[simp] theorem State.setPen_pens : (s.setPen p v).pens = s.pens.set p v := rfl
@[simp] theorem State.setPen_trackers : (s.setPen p v).trackers = s.trackers := rfl
@[simp] theorem State.setPen_injection : (s.setPen p v).injection = s.injection := rfl
@[simp] theorem State.setPen_regions : (s.setPen p v).regions = s.regions := rfl
@[simp] theorem State.setPen_menu : (s.setPen p v).menu = s.menu := rfl
@[simp] theorem State.setPen_notices : (s.setPen p v).notices = s.notices := rfl
@[simp] theorem State.setPen_decoder : (s.setPen p v).decoder = s.decoder := rfl
@[simp] theorem State.setPen_supervisor : (s.setPen p v).supervisor = s.supervisor := rfl
@[simp] theorem State.setPen_pending : (s.setPen p v).pending = s.pending := rfl
@[simp] theorem State.setPen_draws : (s.setPen p v).draws = s.draws := rfl
end

section
variable (s : State) (p : Pen) (v : Tracker)
@[simp] theorem State.setTracker_link : (s.setTracker p v).link = s.link := rfl
@[simp] theorem State.setTracker_beam : (s.setTracker p v).beam = s.beam := rfl
@[simp] theorem State.setTracker_segments : (s.setTracker p v).segments = s.segments := rfl
@[simp] theorem State.setTracker_rewrite : (s.setTracker p v).rewrite = s.rewrite := rfl
@[simp] theorem State.setTracker_pens : (s.setTracker p v).pens = s.pens := rfl
@[simp] theorem State.setTracker_trackers : (s.setTracker p v).trackers = s.trackers.set p v := rfl
@[simp] theorem State.setTracker_injection : (s.setTracker p v).injection = s.injection := rfl
@[simp] theorem State.setTracker_regions : (s.setTracker p v).regions = s.regions := rfl
@[simp] theorem State.setTracker_menu : (s.setTracker p v).menu = s.menu := rfl
@[simp] theorem State.setTracker_notices : (s.setTracker p v).notices = s.notices := rfl
@[simp] theorem State.setTracker_decoder : (s.setTracker p v).decoder = s.decoder := rfl
@[simp] theorem State.setTracker_supervisor : (s.setTracker p v).supervisor = s.supervisor := rfl
@[simp] theorem State.setTracker_pending : (s.setTracker p v).pending = s.pending := rfl
@[simp] theorem State.setTracker_draws : (s.setTracker p v).draws = s.draws := rfl
end

section
variable (s : State) (p : Pen) (v : RegionTest)
@[simp] theorem State.setRegionTest_link : (s.setRegionTest p v).link = s.link := rfl
@[simp] theorem State.setRegionTest_beam : (s.setRegionTest p v).beam = s.beam := rfl
@[simp] theorem State.setRegionTest_segments : (s.setRegionTest p v).segments = s.segments := rfl
@[simp] theorem State.setRegionTest_rewrite : (s.setRegionTest p v).rewrite = s.rewrite := rfl
@[simp] theorem State.setRegionTest_pens : (s.setRegionTest p v).pens = s.pens := rfl
@[simp] theorem State.setRegionTest_trackers : (s.setRegionTest p v).trackers = s.trackers := rfl
@[simp] theorem State.setRegionTest_injection : (s.setRegionTest p v).injection = s.injection := rfl
@[simp] theorem State.setRegionTest_regions : (s.setRegionTest p v).regions = { s.regions with tests := s.regions.tests.set p v } := rfl
@[simp] theorem State.setRegionTest_menu : (s.setRegionTest p v).menu = s.menu := rfl
@[simp] theorem State.setRegionTest_notices : (s.setRegionTest p v).notices = s.notices := rfl
@[simp] theorem State.setRegionTest_decoder : (s.setRegionTest p v).decoder = s.decoder := rfl
@[simp] theorem State.setRegionTest_supervisor : (s.setRegionTest p v).supervisor = s.supervisor := rfl
@[simp] theorem State.setRegionTest_pending : (s.setRegionTest p v).pending = s.pending := rfl
@[simp] theorem State.setRegionTest_draws : (s.setRegionTest p v).draws = s.draws := rfl
end

section
variable (s : State) (p : Pen) (v : Option Nat)
@[simp] theorem State.setEcho_link : (s.setEcho p v).link = s.link := rfl
@[simp] theorem State.setEcho_beam : (s.setEcho p v).beam = s.beam := rfl
@[simp] theorem State.setEcho_segments : (s.setEcho p v).segments = s.segments := rfl
@[simp] theorem State.setEcho_rewrite : (s.setEcho p v).rewrite = { s.rewrite with echo := s.rewrite.echo.set p v } := rfl
@[simp] theorem State.setEcho_pens : (s.setEcho p v).pens = s.pens := rfl
@[simp] theorem State.setEcho_trackers : (s.setEcho p v).trackers = s.trackers := rfl
@[simp] theorem State.setEcho_injection : (s.setEcho p v).injection = s.injection := rfl
@[simp] theorem State.setEcho_regions : (s.setEcho p v).regions = s.regions := rfl
@[simp] theorem State.setEcho_menu : (s.setEcho p v).menu = s.menu := rfl
@[simp] theorem State.setEcho_notices : (s.setEcho p v).notices = s.notices := rfl
@[simp] theorem State.setEcho_decoder : (s.setEcho p v).decoder = s.decoder := rfl
@[simp] theorem State.setEcho_supervisor : (s.setEcho p v).supervisor = s.supervisor := rfl
@[simp] theorem State.setEcho_pending : (s.setEcho p v).pending = s.pending := rfl
@[simp] theorem State.setEcho_draws : (s.setEcho p v).draws = s.draws := rfl
end

section
variable (s : State) (n : Nat) (e : SegEntry)
@[simp] theorem State.setSegEntry_link : (s.setSegEntry n e).link = s.link := rfl
@[simp] theorem State.setSegEntry_beam : (s.setSegEntry n e).beam = s.beam := rfl
@[simp] theorem State.setSegEntry_segments : (s.setSegEntry n e).segments = Table.write SegEntry.blank s.segments n e := rfl
@[simp] theorem State.setSegEntry_rewrite : (s.setSegEntry n e).rewrite = s.rewrite := rfl
@[simp] theorem State.setSegEntry_pens : (s.setSegEntry n e).pens = s.pens := rfl
@[simp] theorem State.setSegEntry_trackers : (s.setSegEntry n e).trackers = s.trackers := rfl
@[simp] theorem State.setSegEntry_injection : (s.setSegEntry n e).injection = s.injection := rfl
@[simp] theorem State.setSegEntry_regions : (s.setSegEntry n e).regions = s.regions := rfl
@[simp] theorem State.setSegEntry_menu : (s.setSegEntry n e).menu = s.menu := rfl
@[simp] theorem State.setSegEntry_notices : (s.setSegEntry n e).notices = s.notices := rfl
@[simp] theorem State.setSegEntry_decoder : (s.setSegEntry n e).decoder = s.decoder := rfl
@[simp] theorem State.setSegEntry_supervisor : (s.setSegEntry n e).supervisor = s.supervisor := rfl
@[simp] theorem State.setSegEntry_pending : (s.setSegEntry n e).pending = s.pending := rfl
@[simp] theorem State.setSegEntry_draws : (s.setSegEntry n e).draws = s.draws := rfl
end

section
variable (s : State) (r : BitVec 4) (p : Option Pen) (b : NoticeBody)
@[simp] theorem State.enterNotice_link : (s.enterNotice r p b).link = s.link := rfl
@[simp] theorem State.enterNotice_beam : (s.enterNotice r p b).beam = s.beam := rfl
@[simp] theorem State.enterNotice_segments : (s.enterNotice r p b).segments = s.segments := rfl
@[simp] theorem State.enterNotice_rewrite : (s.enterNotice r p b).rewrite = s.rewrite := rfl
@[simp] theorem State.enterNotice_pens : (s.enterNotice r p b).pens = s.pens := rfl
@[simp] theorem State.enterNotice_trackers : (s.enterNotice r p b).trackers = s.trackers := rfl
@[simp] theorem State.enterNotice_injection : (s.enterNotice r p b).injection = s.injection := rfl
@[simp] theorem State.enterNotice_regions : (s.enterNotice r p b).regions = s.regions := rfl
@[simp] theorem State.enterNotice_menu : (s.enterNotice r p b).menu = s.menu := rfl
@[simp] theorem State.enterNotice_notices : (s.enterNotice r p b).notices = s.notices.enter r p b := rfl
@[simp] theorem State.enterNotice_decoder : (s.enterNotice r p b).decoder = s.decoder := rfl
@[simp] theorem State.enterNotice_supervisor : (s.enterNotice r p b).supervisor = s.supervisor := rfl
@[simp] theorem State.enterNotice_pending : (s.enterNotice r p b).pending = s.pending := rfl
@[simp] theorem State.enterNotice_draws : (s.enterNotice r p b).draws = s.draws := rfl
end

section
variable (s : State) (w : Word) (e : Entry)
@[simp] theorem State.sendHeld_link : (s.sendHeld w e).link = { held := none, downstream := some w } := rfl
@[simp] theorem State.sendHeld_beam : (s.sendHeld w e).beam = { s.beam with flight := s.beam.flight ++ [e] } := rfl
@[simp] theorem State.sendHeld_segments : (s.sendHeld w e).segments = s.segments := rfl
@[simp] theorem State.sendHeld_rewrite : (s.sendHeld w e).rewrite = s.rewrite := rfl
@[simp] theorem State.sendHeld_pens : (s.sendHeld w e).pens = s.pens := rfl
@[simp] theorem State.sendHeld_trackers : (s.sendHeld w e).trackers = s.trackers := rfl
@[simp] theorem State.sendHeld_injection : (s.sendHeld w e).injection = s.injection := rfl
@[simp] theorem State.sendHeld_regions : (s.sendHeld w e).regions = s.regions := rfl
@[simp] theorem State.sendHeld_menu : (s.sendHeld w e).menu = s.menu := rfl
@[simp] theorem State.sendHeld_notices : (s.sendHeld w e).notices = s.notices := rfl
@[simp] theorem State.sendHeld_decoder : (s.sendHeld w e).decoder = s.decoder := rfl
@[simp] theorem State.sendHeld_supervisor : (s.sendHeld w e).supervisor = s.supervisor := rfl
@[simp] theorem State.sendHeld_pending : (s.sendHeld w e).pending = s.pending := rfl
@[simp] theorem State.sendHeld_draws : (s.sendHeld w e).draws = s.draws := rfl
end

section
variable (s : State) (p : Pen)
@[simp] theorem State.dropDots_link : (s.dropDots p).link = s.link := rfl
@[simp] theorem State.dropDots_beam : (s.dropDots p).beam = s.beam := rfl
@[simp] theorem State.dropDots_segments : (s.dropDots p).segments = s.segments := rfl
@[simp] theorem State.dropDots_rewrite : (s.dropDots p).rewrite = s.rewrite := rfl
@[simp] theorem State.dropDots_pens : (s.dropDots p).pens = s.pens := rfl
@[simp] theorem State.dropDots_trackers : (s.dropDots p).trackers = s.trackers := rfl
@[simp] theorem State.dropDots_injection : (s.dropDots p).injection = s.injection.filter fun d => decide (d.pen ≠ p) := rfl
@[simp] theorem State.dropDots_regions : (s.dropDots p).regions = s.regions := rfl
@[simp] theorem State.dropDots_menu : (s.dropDots p).menu = s.menu := rfl
@[simp] theorem State.dropDots_notices : (s.dropDots p).notices = s.notices := rfl
@[simp] theorem State.dropDots_decoder : (s.dropDots p).decoder = s.decoder := rfl
@[simp] theorem State.dropDots_supervisor : (s.dropDots p).supervisor = s.supervisor := rfl
@[simp] theorem State.dropDots_pending : (s.dropDots p).pending = s.pending := rfl
@[simp] theorem State.dropDots_draws : (s.dropDots p).draws = s.draws := rfl
end

section
variable (s : State) (w : Word)
@[simp] theorem State.hold_link : (s.hold w).link = { s.link with held := some w } := rfl
@[simp] theorem State.hold_beam : (s.hold w).beam = s.beam := rfl
@[simp] theorem State.hold_segments : (s.hold w).segments = s.segments := rfl
@[simp] theorem State.hold_rewrite : (s.hold w).rewrite = s.rewrite := rfl
@[simp] theorem State.hold_pens : (s.hold w).pens = s.pens := rfl
@[simp] theorem State.hold_trackers : (s.hold w).trackers = s.trackers := rfl
@[simp] theorem State.hold_injection : (s.hold w).injection = s.injection := rfl
@[simp] theorem State.hold_regions : (s.hold w).regions = s.regions := rfl
@[simp] theorem State.hold_menu : (s.hold w).menu = s.menu := rfl
@[simp] theorem State.hold_notices : (s.hold w).notices = s.notices := rfl
@[simp] theorem State.hold_decoder : (s.hold w).decoder = s.decoder := rfl
@[simp] theorem State.hold_supervisor : (s.hold w).supervisor = s.supervisor := rfl
@[simp] theorem State.hold_pending : (s.hold w).pending = s.pending := rfl
@[simp] theorem State.hold_draws : (s.hold w).draws = s.draws := rfl
end

section
variable (s : State) 
@[simp] theorem State.fixCrosses_link : s.fixCrosses.link = s.link := rfl
@[simp] theorem State.fixCrosses_beam : s.fixCrosses.beam = s.beam := rfl
@[simp] theorem State.fixCrosses_segments : s.fixCrosses.segments = s.segments := rfl
@[simp] theorem State.fixCrosses_rewrite : s.fixCrosses.rewrite = s.rewrite := rfl
@[simp] theorem State.fixCrosses_pens : s.fixCrosses.pens = s.pens := rfl
@[simp] theorem State.fixCrosses_trackers : s.fixCrosses.trackers = ⟨s.trackers.a.crossFixed, s.trackers.b.crossFixed⟩ := rfl
@[simp] theorem State.fixCrosses_injection : s.fixCrosses.injection = crossDots .a s.trackers.a ++ crossDots .b s.trackers.b := rfl
@[simp] theorem State.fixCrosses_regions : s.fixCrosses.regions = s.regions := rfl
@[simp] theorem State.fixCrosses_menu : s.fixCrosses.menu = s.menu := rfl
@[simp] theorem State.fixCrosses_notices : s.fixCrosses.notices = s.notices := rfl
@[simp] theorem State.fixCrosses_decoder : s.fixCrosses.decoder = s.decoder := rfl
@[simp] theorem State.fixCrosses_supervisor : s.fixCrosses.supervisor = s.supervisor := rfl
@[simp] theorem State.fixCrosses_pending : s.fixCrosses.pending = s.pending := rfl
@[simp] theorem State.fixCrosses_draws : s.fixCrosses.draws = s.draws := rfl
end

section
variable (s : State) (n : Nat) (r : PageRecord)
@[simp] theorem State.setPage_link : (s.setPage n r).link = s.link := rfl
@[simp] theorem State.setPage_beam : (s.setPage n r).beam = s.beam := rfl
@[simp] theorem State.setPage_segments : (s.setPage n r).segments = s.segments := rfl
@[simp] theorem State.setPage_rewrite : (s.setPage n r).rewrite = s.rewrite := rfl
@[simp] theorem State.setPage_pens : (s.setPage n r).pens = s.pens := rfl
@[simp] theorem State.setPage_trackers : (s.setPage n r).trackers = s.trackers := rfl
@[simp] theorem State.setPage_injection : (s.setPage n r).injection = s.injection := rfl
@[simp] theorem State.setPage_regions : (s.setPage n r).regions = s.regions := rfl
@[simp] theorem State.setPage_menu : (s.setPage n r).menu = { s.menu with pages := Table.write PageRecord.blank s.menu.pages n r } := rfl
@[simp] theorem State.setPage_notices : (s.setPage n r).notices = s.notices := rfl
@[simp] theorem State.setPage_decoder : (s.setPage n r).decoder = s.decoder := rfl
@[simp] theorem State.setPage_supervisor : (s.setPage n r).supervisor = s.supervisor := rfl
@[simp] theorem State.setPage_pending : (s.setPage n r).pending = s.pending := rfl
@[simp] theorem State.setPage_draws : (s.setPage n r).draws = s.draws := rfl
end

/-! ### One pen's state -/

section
variable (s : State) (p q : Pen)
@[simp] theorem State.pen_setPen (v : PenEngine) : (s.setPen p v).pen p = v := by simp [State.pen]
@[simp] theorem State.pen_setPen_other (h : q ≠ p) (v : PenEngine) : (s.setPen p v).pen q = s.pen q := by
  simp [State.pen, h]
@[simp] theorem State.tracker_setTracker (v : Tracker) : (s.setTracker p v).tracker p = v := by
  simp [State.tracker]
@[simp] theorem State.tracker_setTracker_other (h : q ≠ p) (v : Tracker) :
    (s.setTracker p v).tracker q = s.tracker q := by simp [State.tracker, h]
@[simp] theorem State.regionTest_setRegionTest (v : RegionTest) : (s.setRegionTest p v).regionTest p = v := by
  simp [State.regionTest]
@[simp] theorem State.regionTest_setRegionTest_other (h : q ≠ p) (v : RegionTest) :
    (s.setRegionTest p v).regionTest q = s.regionTest q := by simp [State.regionTest, h]
@[simp] theorem State.pen_setTracker (v : Tracker) : (s.setTracker q v).pen p = s.pen p := rfl
@[simp] theorem State.pen_setRegionTest (v : RegionTest) : (s.setRegionTest q v).pen p = s.pen p := rfl
@[simp] theorem State.pen_setEcho (v : Option Nat) : (s.setEcho q v).pen p = s.pen p := rfl
@[simp] theorem State.pen_setSegEntry (n : Nat) (e : SegEntry) : (s.setSegEntry n e).pen p = s.pen p := rfl
@[simp] theorem State.pen_enterNotice (r : BitVec 4) (o : Option Pen) (b : NoticeBody) : (s.enterNotice r o b).pen p = s.pen p := rfl
@[simp] theorem State.pen_sendHeld (w : Word) (e : Entry) : (s.sendHeld w e).pen p = s.pen p := rfl
@[simp] theorem State.pen_dropDots  : (s.dropDots q).pen p = s.pen p := rfl
@[simp] theorem State.pen_hold (w : Word) : (s.hold w).pen p = s.pen p := rfl
@[simp] theorem State.pen_fixCrosses  : s.fixCrosses.pen p = s.pen p := rfl
@[simp] theorem State.pen_setPage (n : Nat) (r : PageRecord) : (s.setPage n r).pen p = s.pen p := rfl
@[simp] theorem State.tracker_setPen (v : PenEngine) : (s.setPen q v).tracker p = s.tracker p := rfl
@[simp] theorem State.tracker_setRegionTest (v : RegionTest) : (s.setRegionTest q v).tracker p = s.tracker p := rfl
@[simp] theorem State.tracker_setEcho (v : Option Nat) : (s.setEcho q v).tracker p = s.tracker p := rfl
@[simp] theorem State.tracker_setSegEntry (n : Nat) (e : SegEntry) : (s.setSegEntry n e).tracker p = s.tracker p := rfl
@[simp] theorem State.tracker_enterNotice (r : BitVec 4) (o : Option Pen) (b : NoticeBody) : (s.enterNotice r o b).tracker p = s.tracker p := rfl
@[simp] theorem State.tracker_sendHeld (w : Word) (e : Entry) : (s.sendHeld w e).tracker p = s.tracker p := rfl
@[simp] theorem State.tracker_dropDots  : (s.dropDots q).tracker p = s.tracker p := rfl
@[simp] theorem State.tracker_hold (w : Word) : (s.hold w).tracker p = s.tracker p := rfl
@[simp] theorem State.tracker_setPage (n : Nat) (r : PageRecord) : (s.setPage n r).tracker p = s.tracker p := rfl
@[simp] theorem State.regionTest_setPen (v : PenEngine) : (s.setPen q v).regionTest p = s.regionTest p := rfl
@[simp] theorem State.regionTest_setTracker (v : Tracker) : (s.setTracker q v).regionTest p = s.regionTest p := rfl
@[simp] theorem State.regionTest_setEcho (v : Option Nat) : (s.setEcho q v).regionTest p = s.regionTest p := rfl
@[simp] theorem State.regionTest_setSegEntry (n : Nat) (e : SegEntry) : (s.setSegEntry n e).regionTest p = s.regionTest p := rfl
@[simp] theorem State.regionTest_enterNotice (r : BitVec 4) (o : Option Pen) (b : NoticeBody) : (s.enterNotice r o b).regionTest p = s.regionTest p := rfl
@[simp] theorem State.regionTest_sendHeld (w : Word) (e : Entry) : (s.sendHeld w e).regionTest p = s.regionTest p := rfl
@[simp] theorem State.regionTest_dropDots  : (s.dropDots q).regionTest p = s.regionTest p := rfl
@[simp] theorem State.regionTest_hold (w : Word) : (s.hold w).regionTest p = s.regionTest p := rfl
@[simp] theorem State.regionTest_fixCrosses  : s.fixCrosses.regionTest p = s.regionTest p := rfl
@[simp] theorem State.regionTest_setPage (n : Nat) (r : PageRecord) : (s.setPage n r).regionTest p = s.regionTest p := rfl
@[simp] theorem State.setPen_pen : s.setPen p (s.pen p) = s := by simp [State.setPen, State.pen]
@[simp] theorem State.setTracker_tracker : s.setTracker p (s.tracker p) = s := by
  simp [State.setTracker, State.tracker]
@[simp] theorem State.setPen_setPen (u v : PenEngine) : (s.setPen p u).setPen p v = s.setPen p v := by
  simp [State.setPen]
@[simp] theorem State.setTracker_setTracker (u v : Tracker) :
    (s.setTracker p u).setTracker p v = s.setTracker p v := by simp [State.setTracker]
end

/-! ### The segment images -/

@[simp] theorem State.segEntry_setPen (s : State) (p : Pen) (v : PenEngine) (n : Nat) :
    (s.setPen p v).segEntry n = s.segEntry n := rfl
@[simp] theorem State.segEntry_setTracker (s : State) (p : Pen) (v : Tracker) (n : Nat) :
    (s.setTracker p v).segEntry n = s.segEntry n := rfl
@[simp] theorem State.segEntry_enterNotice (s : State) (r : BitVec 4) (p : Option Pen) (b : NoticeBody) (n : Nat) :
    (s.enterNotice r p b).segEntry n = s.segEntry n := rfl
@[simp] theorem State.image_zero (s : State) : s.image 0 = Image.blank := rfl

end Sys2Proof.Machine
end

