-- ==== Sys2Proof/Laws/Tables.lean ====
section
/-! SUPPORT. What reading, writing and mapping a table by number do, and that each keeps the canonical form. -/

namespace Sys2Proof.Machine

variable {α : Type}

/-- An unlisted number reads as the reset value. -/
@[simp] theorem Table.read_nil (d : α) (k : Nat) : Table.read d [] k = d := rfl

theorem Table.read_place_same (d v : α) (k : Nat) (t : Table α) : Table.read d (Table.place k v t) k = v := by
  induction t with
  | nil => simp [Table.place, Table.read]
  | cons e t ih =>
    obtain ⟨j, u⟩ := e
    unfold Table.place
    split
    · simp [Table.read]
    · split
      · simp [Table.read]
      · rename_i h
        simp [Table.read, ih, Ne.symm h]

theorem Table.read_place_other (d v : α) {k n : Nat} (h : n ≠ k) (t : Table α) :
    Table.read d (Table.place k v t) n = Table.read d t n := by
  induction t with
  | nil => simp [Table.place, Table.read, Ne.symm h]
  | cons e t ih =>
    obtain ⟨j, u⟩ := e
    unfold Table.place
    split
    · simp [Table.read, Ne.symm h]
    · split
      · rename_i hk
        subst hk
        simp [Table.read, Ne.symm h]
      · simp [Table.read, ih]

theorem Table.read_drop_same (d : α) (k : Nat) (t : Table α) : Table.read d (Table.drop k t) k = d := by
  induction t with
  | nil => rfl
  | cons e t ih =>
    obtain ⟨j, u⟩ := e
    by_cases h : j = k <;> simp_all [Table.drop, Table.read]

theorem Table.read_drop_other (d : α) {k n : Nat} (h : n ≠ k) (t : Table α) :
    Table.read d (Table.drop k t) n = Table.read d t n := by
  induction t with
  | nil => rfl
  | cons e t ih =>
    obtain ⟨j, u⟩ := e
    by_cases hj : j = k
    · subst hj; simp_all [Table.drop, Table.read, Ne.symm h]
    · simp_all [Table.drop, Table.read]

section
variable [DecidableEq α]

/-- A write is read back. -/
@[simp] theorem Table.read_write_same (d v : α) (k : Nat) (t : Table α) :
    Table.read d (Table.write d t k v) k = v := by
  unfold Table.write
  split
  · rename_i h; rw [Table.read_drop_same, h]
  · exact Table.read_place_same ..

/-- A write leaves every other number as it was. -/
@[simp] theorem Table.read_write_other (d v : α) {k n : Nat} (h : n ≠ k) (t : Table α) :
    Table.read d (Table.write d t k v) n = Table.read d t n := by
  unfold Table.write
  split
  · exact Table.read_drop_other d h t
  · exact Table.read_place_other d v h t

omit [DecidableEq α] in
/-- The canonical form, as a property. -/
def Table.Canonical (d : α) (t : Table α) : Prop := t.Pairwise (fun a b => a.1 < b.1) ∧ ∀ e ∈ t, e.2 ≠ d

theorem Table.wf_iff (d : α) (t : Table α) : Table.wf d t = true ↔ Table.Canonical d t := by
  induction t with
  | nil => simp [Table.wf, Table.Canonical]
  | cons e t ih =>
    obtain ⟨j, u⟩ := e
    simp only [Table.wf, Bool.and_eq_true, decide_eq_true_eq, List.all_eq_true, ih, Table.Canonical,
      List.pairwise_cons, List.mem_cons, forall_eq_or_imp]
    tauto

omit [DecidableEq α] in
theorem Table.mem_place {k : Nat} {v : α} {t : Table α} {e : Nat × α} (h : e ∈ Table.place k v t) :
    e = (k, v) ∨ e ∈ t := by
  induction t with
  | nil => simpa [Table.place] using h
  | cons f t ih =>
    obtain ⟨j, u⟩ := f
    unfold Table.place at h
    split at h
    · simpa using h
    · split at h
      · simp at h ⊢; tauto
      · simp at h ⊢; tauto

omit [DecidableEq α] in
theorem Table.canonical_place {d v : α} (hv : v ≠ d) (k : Nat) {t : Table α} (h : Table.Canonical d t) :
    Table.Canonical d (Table.place k v t) := by
  refine ⟨?_, fun e he => ?_⟩
  · induction t with
    | nil => simp [Table.place]
    | cons f t ih =>
      obtain ⟨j, u⟩ := f
      obtain ⟨hp, hd⟩ := h
      rw [List.pairwise_cons] at hp
      unfold Table.place
      split
      · rename_i hk
        simp only [List.pairwise_cons, List.mem_cons, forall_eq_or_imp]
        exact ⟨⟨hk, fun e he => hk.trans (hp.1 e he)⟩, hp⟩
      · split
        · rename_i hk
          subst hk
          exact List.pairwise_cons.2 hp
        · refine List.pairwise_cons.2 ⟨fun e he => ?_, ih ⟨hp.2, fun e he => hd e (by simp [he])⟩⟩
          rcases Table.mem_place he with rfl | he
          · simp only; omega
          · exact hp.1 e he
  · rcases Table.mem_place he with rfl | he
    · exact hv
    · exact h.2 e he

/-- A write keeps the canonical form. -/
theorem Table.wf_write (d v : α) (k : Nat) {t : Table α} (h : Table.wf d t = true) :
    Table.wf d (Table.write d t k v) = true := by
  rw [Table.wf_iff] at *
  unfold Table.write
  split
  · exact ⟨h.1.filter _, fun e he => h.2 e (List.mem_filter.1 he).1⟩
  · exact Table.canonical_place ‹_› k h

/-- Mapping every record keeps the canonical form. -/
theorem Table.wf_mapAll (d : α) (f : α → α) {t : Table α} (h : Table.wf d t = true) :
    Table.wf d (Table.mapAll d f t) = true := by
  rw [Table.wf_iff] at *
  refine ⟨List.Pairwise.filter _ (List.pairwise_map.2 h.1), fun e he => ?_⟩
  simpa using (List.mem_filter.1 he).2

omit [DecidableEq α] in
theorem Table.read_of_lt (d : α) {t : Table α} {k : Nat} (h : ∀ e ∈ t, k < e.1) : Table.read d t k = d := by
  induction t with
  | nil => rfl
  | cons f t ih =>
    obtain ⟨j, u⟩ := f
    have hj : k < j := h (j, u) (by simp)
    simp [Table.read, Nat.ne_of_gt hj, ih fun e he => h e (by simp [he])]

/-- Mapping every record by a function that keeps the reset value maps what every number reads as. -/
theorem Table.read_mapAll (d : α) (f : α → α) (hf : f d = d) {t : Table α} (h : Table.wf d t = true) (k : Nat) :
    Table.read d (Table.mapAll d f t) k = f (Table.read d t k) := by
  rw [Table.wf_iff] at h
  induction t with
  | nil => simp [Table.mapAll, Table.read, hf]
  | cons e t ih =>
    obtain ⟨j, u⟩ := e
    have hp := List.pairwise_cons.1 h.1
    have ih := ih ⟨hp.2, fun e he => h.2 e (by simp [he])⟩
    have key : Table.mapAll d f ((j, u) :: t) =
        if f u = d then Table.mapAll d f t else (j, f u) :: Table.mapAll d f t := by
      by_cases hu : f u = d <;> simp [Table.mapAll, hu]
    rw [key]
    by_cases hjk : j = k
    · subst hjk
      have hlt : Table.read d t j = d := Table.read_of_lt d fun e he => hp.1 e he
      split
      · rename_i hu
        simp [Table.read, ih, hlt, hf, hu]
      · simp [Table.read]
    · split <;> simp [Table.read, hjk, ih]

end

end Sys2Proof.Machine
end

