-- ==== Sys2Proof/Laws/Operations.lean ====
section
/-! SUPPORT. What the shared operations of the blocks do: clamping, routing, faults, the end of an attempt, the
requests of a tracker. Each is said once here, and its callers need not unfold it. -/

namespace Sys2Proof.Machine

/-! ### Clamping (R5) -/

theorem clampCoord_le (v : Int) : clampCoord v ≤ 4095 := Nat.min_le_right _ _

theorem clampCoord_of_mem {v : Int} (h0 : 0 ≤ v) (h1 : v ≤ 4095) : (clampCoord v : Int) = v := by
  unfold clampCoord Config.maxCoord; omega

theorem Point.displaced_le (p : Point) (dx dy : Int) : (p.displaced dx dy).x ≤ 4095 ∧ (p.displaced dx dy).y ≤ 4095 :=
  ⟨clampCoord_le _, clampCoord_le _⟩

theorem Point.displaced_zero {p : Point} (hx : p.x ≤ 4095) (hy : p.y ≤ 4095) : p.displaced 0 0 = p := by
  obtain ⟨x, y⟩ := p
  simp [Point.displaced, clampCoord, Config.maxCoord] at *
  omega

/-! ### Routing (R154) -/

theorem lowestLevel_mem (levels : Table Nat) (best : Nat) (cs : List Nat) :
    lowestLevel levels best cs ∈ best :: cs := by
  induction cs generalizing best with
  | nil => simp [lowestLevel]
  | cons c cs ih =>
    unfold lowestLevel
    split
    · exact List.mem_cons_of_mem _ (ih c)
    · have := ih best
      simp at this ⊢
      tauto

/-- The channel chosen has the lowest level of those it was chosen among. -/
theorem lowestLevel_le (levels : Table Nat) (best : Nat) (cs : List Nat) :
    ∀ c ∈ best :: cs, Table.read 0 levels (lowestLevel levels best cs) ≤ Table.read 0 levels c := by
  induction cs generalizing best with
  | nil => simp [lowestLevel]
  | cons c cs ih =>
    intro d hd
    unfold lowestLevel
    split
    · rename_i hlt
      rcases List.mem_cons.1 hd with rfl | hd
      · exact (ih c c (by simp)).trans hlt.le
      · exact ih c d hd
    · rename_i hge
      rcases List.mem_cons.1 hd with rfl | hd
      · exact ih d d (by simp)
      · rcases List.mem_cons.1 hd with rfl | hd
        · exact (ih best best (by simp)).trans (not_lt.1 hge)
        · exact ih best d (by simp [hd])

/-- The channels that R154 chooses among, in the order that breaks a tie. -/
def keptChannels (u : NoticeUnit) (route : BitVec 4) : List Nat :=
  (if u.tieFirst then [0, 1, 2, 3] else u.lru).filter fun c => route.getLsbD c && u.isPresent c

/-- R154: the choice of a channel is channel 0 with REROUTED, or a kept channel; without ALL one of the lowest
level. -/
theorem chooseChannel_cases (u : NoticeUnit) (route : BitVec 4) :
    (keptChannels u route = [] ∧ chooseChannel u route = (0, true)) ∨
      ∃ c, chooseChannel u route = (c, false) ∧ c ∈ keptChannels u route ∧
        (u.all = true → (keptChannels u route).head? = some c) ∧
        (u.all = false → ∀ d ∈ keptChannels u route, Table.read 0 u.levels c ≤ Table.read 0 u.levels d) := by
  have hk : chooseChannel u route = match keptChannels u route with
      | [] => (0, true)
      | c :: cs => (if u.all then c else lowestLevel u.levels c cs, false) := rfl
  cases h : keptChannels u route with
  | nil => rw [h] at hk; exact .inl ⟨rfl, hk⟩
  | cons c cs =>
    rw [h] at hk
    refine .inr ⟨_, hk, ?_, ?_, ?_⟩
    · split
      · simp
      · exact lowestLevel_mem ..
    · intro ha; simp [ha]
    · intro ha
      simpa [ha] using lowestLevel_le u.levels c cs

theorem mostRecent_perm {lru : List Nat} (hn : lru.Nodup) {c : Nat} (hc : c ∈ lru) : (mostRecent lru c).Perm lru := by
  have h1 : (lru.filter fun d => decide (d ≠ c)).Perm (lru.erase c) := by
    rw [hn.erase_eq_filter]
    exact List.Perm.of_eq (List.filter_congr fun x _ => by simp [bne, BEq.beq])
  exact ((h1.append_right [c]).trans (List.perm_append_comm)).trans (List.perm_cons_erase hc).symm

/-! ### Faults (R174) -/

theorem State.raiseFault_room (s : State) (kind : FaultKind) (context : Word) (h : s.faultRoom = true) :
    s.raiseFault kind context =
      { s with
        supervisor := { s.supervisor with
          sticky := stickyWith s.supervisor.sticky kind
          first := firstWith s.supervisor.first kind context }
        notices := s.notices.enter (onlyChannel 0) none
          (.fault kind context s.supervisor.first.isNone s.supervisor.lost
            (stickyWith s.supervisor.sticky kind)) } := by
  simp [State.raiseFault, h]

theorem State.raiseFault_full (s : State) (kind : FaultKind) (context : Word) (h : s.faultRoom = false) :
    s.raiseFault kind context =
      { s with supervisor := { s.supervisor with
          sticky := stickyWith s.supervisor.sticky kind
          first := firstWith s.supervisor.first kind context
          lost := true } } := by
  simp [State.raiseFault, h]

section
variable (s : State) (k : FaultKind) (c : Word)
@[simp] theorem State.raiseFault_link : (s.raiseFault k c).link = s.link := by unfold State.raiseFault; split <;> rfl
@[simp] theorem State.raiseFault_beam : (s.raiseFault k c).beam = s.beam := by unfold State.raiseFault; split <;> rfl
@[simp] theorem State.raiseFault_segments : (s.raiseFault k c).segments = s.segments := by unfold State.raiseFault; split <;> rfl
@[simp] theorem State.raiseFault_rewrite : (s.raiseFault k c).rewrite = s.rewrite := by unfold State.raiseFault; split <;> rfl
@[simp] theorem State.raiseFault_pens : (s.raiseFault k c).pens = s.pens := by unfold State.raiseFault; split <;> rfl
@[simp] theorem State.raiseFault_trackers : (s.raiseFault k c).trackers = s.trackers := by unfold State.raiseFault; split <;> rfl
@[simp] theorem State.raiseFault_injection : (s.raiseFault k c).injection = s.injection := by unfold State.raiseFault; split <;> rfl
@[simp] theorem State.raiseFault_regions : (s.raiseFault k c).regions = s.regions := by unfold State.raiseFault; split <;> rfl
@[simp] theorem State.raiseFault_menu : (s.raiseFault k c).menu = s.menu := by unfold State.raiseFault; split <;> rfl
@[simp] theorem State.raiseFault_decoder : (s.raiseFault k c).decoder = s.decoder := by unfold State.raiseFault; split <;> rfl
@[simp] theorem State.raiseFault_pending : (s.raiseFault k c).pending = s.pending := by unfold State.raiseFault; split <;> rfl
@[simp] theorem State.raiseFault_draws : (s.raiseFault k c).draws = s.draws := by unfold State.raiseFault; split <;> rfl
end

/-! ### Offers (R65, R145) -/

theorem State.offerNotice_room (s : State) (r : BitVec 4) (p : Option Pen) (b : NoticeBody) (h : s.hasRoom = true) :
    s.offerNotice r p b = s.enterNotice r p b := by simp [State.offerNotice, h]

theorem State.offerNotice_full (s : State) (r : BitVec 4) (p : Option Pen) (b : NoticeBody) (h : s.hasRoom = false) :
    s.offerNotice r p b = s := by simp [State.offerNotice, h]

section
variable (s : State) (r : BitVec 4) (o : Option Pen) (b : NoticeBody)
@[simp] theorem State.offerNotice_link : (s.offerNotice r o b).link = s.link := by unfold State.offerNotice; split <;> rfl
@[simp] theorem State.offerNotice_beam : (s.offerNotice r o b).beam = s.beam := by unfold State.offerNotice; split <;> rfl
@[simp] theorem State.offerNotice_segments : (s.offerNotice r o b).segments = s.segments := by unfold State.offerNotice; split <;> rfl
@[simp] theorem State.offerNotice_rewrite : (s.offerNotice r o b).rewrite = s.rewrite := by unfold State.offerNotice; split <;> rfl
@[simp] theorem State.offerNotice_pens : (s.offerNotice r o b).pens = s.pens := by unfold State.offerNotice; split <;> rfl
@[simp] theorem State.offerNotice_trackers : (s.offerNotice r o b).trackers = s.trackers := by unfold State.offerNotice; split <;> rfl
@[simp] theorem State.offerNotice_injection : (s.offerNotice r o b).injection = s.injection := by unfold State.offerNotice; split <;> rfl
@[simp] theorem State.offerNotice_regions : (s.offerNotice r o b).regions = s.regions := by unfold State.offerNotice; split <;> rfl
@[simp] theorem State.offerNotice_menu : (s.offerNotice r o b).menu = s.menu := by unfold State.offerNotice; split <;> rfl
@[simp] theorem State.offerNotice_decoder : (s.offerNotice r o b).decoder = s.decoder := by unfold State.offerNotice; split <;> rfl
@[simp] theorem State.offerNotice_supervisor : (s.offerNotice r o b).supervisor = s.supervisor := by unfold State.offerNotice; split <;> rfl
@[simp] theorem State.offerNotice_pending : (s.offerNotice r o b).pending = s.pending := by unfold State.offerNotice; split <;> rfl
@[simp] theorem State.offerNotice_draws : (s.offerNotice r o b).draws = s.draws := by unfold State.offerNotice; split <;> rfl
end

/-! ### The end of an attempt (R64) -/

section
variable (s : State) (p : Pen) (reason : MissReason) (next : AttemptState)
@[simp] theorem State.endMiss_link : (s.endMiss p reason next).link = s.link := by simp [State.endMiss]
@[simp] theorem State.endMiss_beam : (s.endMiss p reason next).beam = s.beam := by simp [State.endMiss]
@[simp] theorem State.endMiss_segments : (s.endMiss p reason next).segments = s.segments := by simp [State.endMiss]
@[simp] theorem State.endMiss_trackers : (s.endMiss p reason next).trackers = s.trackers := by simp [State.endMiss]
@[simp] theorem State.endMiss_injection : (s.endMiss p reason next).injection = s.injection := by simp [State.endMiss]
@[simp] theorem State.endMiss_menu : (s.endMiss p reason next).menu = s.menu := by simp [State.endMiss]
@[simp] theorem State.endMiss_decoder : (s.endMiss p reason next).decoder = s.decoder := by simp [State.endMiss]
@[simp] theorem State.endMiss_supervisor : (s.endMiss p reason next).supervisor = s.supervisor := by simp [State.endMiss]
@[simp] theorem State.endMiss_pending : (s.endMiss p reason next).pending = s.pending := by simp [State.endMiss]
@[simp] theorem State.endMiss_draws : (s.endMiss p reason next).draws = s.draws := by simp [State.endMiss]

/-- R64: what the end of an attempt leaves in the pen engine. -/
@[simp] theorem State.pen_endMiss : (s.endMiss p reason next).pen p =
    { s.pen p with attempt := next, candidates := [], exclusions := [], lastOutcome := .miss reason } := by
  simp [State.endMiss]

/-- R93: the other pen engine is as it was. -/
@[simp] theorem State.pen_endMiss_other {q : Pen} (h : q ≠ p) : (s.endMiss p reason next).pen q = s.pen q := by
  simp [State.endMiss, h, State.pen]

/-- R122: the test is abandoned; its latched point, counters and flags keep their values. -/
@[simp] theorem State.regionTest_endMiss : (s.endMiss p reason next).regionTest p =
    { s.regionTest p with phase := .idle } := by
  simp [State.endMiss, State.regionTest]

/-- R123: the other pen's test is as it was. -/
@[simp] theorem State.regionTest_endMiss_other {q : Pen} (h : q ≠ p) :
    (s.endMiss p reason next).regionTest q = s.regionTest q := by
  simp [State.endMiss, h, State.regionTest]

/-- R65: the MISS notice enters where room exists, with the counts of the attempt. -/
theorem State.notices_endMiss : (s.endMiss p reason next).notices =
    if s.hasRoom then s.notices.enter (s.defaultRoute p) (some p)
      (.miss reason (s.pen p).frameCount (s.pen p).candidates.length (s.pen p).crowded)
    else s.notices := by
  unfold State.endMiss State.offerNotice
  split <;> simp
end

/-- R67: a tracker that leaves LOCKED ends the region attempt of its pen, and no other. -/
theorem State.notifyUnlocked_cases (s : State) (p : Pen) :
    (s.notifyUnlocked p = s ∧ (s.pen p).attempt ≠ .regionWait ∧ (s.pen p).attempt ≠ .regionCount) ∨
      (s.notifyUnlocked p = s.endMiss p .track (.settled none false) ∧
        ((s.pen p).attempt = .regionWait ∨ (s.pen p).attempt = .regionCount)) := by
  unfold State.notifyUnlocked
  split <;> simp_all

/-! ### Requests (R106, R107) -/

/-- R106: a TRACK request enters the queue, or becomes the tracker's claim. -/
theorem State.trackRequest_cases (s : State) (p : Pen) (req : TrackClaim) :
    (s.trackRequest p req = s.enterNotice (s.defaultRoute p) (some p) (.track req) ∧
        (s.tracker p).trackClaim = none ∧ s.hasRoom = true) ∨
      (s.trackRequest p req = s.setTracker p { s.tracker p with trackClaim := some req } ∧
        ((s.tracker p).trackClaim ≠ none ∨ s.hasRoom = false)) := by
  unfold State.trackRequest
  by_cases h1 : (s.tracker p).trackClaim = none <;> by_cases h2 : s.hasRoom = true <;> simp_all

/-- R62, R145: an outcome is delivered at once where room exists, and else held. -/
theorem State.claimOutcome_room (s : State) (p : Pen) (o : HeldOutcome) (h : s.hasRoom = true) :
    s.claimOutcome p o = s.deliver p o := by simp [State.claimOutcome, h]

theorem State.claimOutcome_full (s : State) (p : Pen) (o : HeldOutcome) (h : s.hasRoom = false) :
    s.claimOutcome p o = s.setPen p { s.pen p with attempt := .holding o } := by
  simp [State.claimOutcome, h]

/-! ### The exclusion list (R85) -/

theorem addExclusion_length {keys : List Key} (h : keys.length ≤ 4) (key : Key) :
    (addExclusion keys key).length ≤ 4 := by
  unfold addExclusion Config.exclusionKeys
  split
  · exact h
  · split <;> simp <;> omega

theorem addExclusion_nodup {keys : List Key} (h : keys.Nodup) (key : Key) : (addExclusion keys key).Nodup := by
  unfold addExclusion
  split
  · exact h
  · rename_i hk
    have hk : key ∉ keys := by simpa using hk
    split
    · exact List.Nodup.append h (by simp) (by simpa using hk)
    · exact List.Nodup.append (h.sublist (List.drop_sublist 1 keys)) (by simp)
        (by simpa using fun hm => hk (List.mem_of_mem_tail hm))

theorem mem_addExclusion (keys : List Key) (key : Key) : key ∈ addExclusion keys key := by
  unfold addExclusion
  split
  · rename_i hk
    simpa using hk
  · split <;> simp

end Sys2Proof.Machine
end

