-- ==== Sys2Proof/Laws/Frames.lean ====
section
/-! SUPPORT. Which parts of the state the actions of the blocks leave as they were. -/

namespace Sys2Proof.Machine

/-! ### Trackers -/

section
variable (s : State) (p : Pen)
@[simp] theorem State.notifyUnlocked_link : (s.notifyUnlocked p).link = s.link := by
  unfold State.notifyUnlocked; split <;> simp
@[simp] theorem State.notifyUnlocked_beam : (s.notifyUnlocked p).beam = s.beam := by
  unfold State.notifyUnlocked; split <;> simp
@[simp] theorem State.notifyUnlocked_segments : (s.notifyUnlocked p).segments = s.segments := by
  unfold State.notifyUnlocked; split <;> simp
@[simp] theorem State.notifyUnlocked_trackers : (s.notifyUnlocked p).trackers = s.trackers := by
  unfold State.notifyUnlocked; split <;> simp
@[simp] theorem State.notifyUnlocked_injection : (s.notifyUnlocked p).injection = s.injection := by
  unfold State.notifyUnlocked; split <;> simp
@[simp] theorem State.notifyUnlocked_menu : (s.notifyUnlocked p).menu = s.menu := by
  unfold State.notifyUnlocked; split <;> simp
@[simp] theorem State.notifyUnlocked_decoder : (s.notifyUnlocked p).decoder = s.decoder := by
  unfold State.notifyUnlocked; split <;> simp
@[simp] theorem State.notifyUnlocked_supervisor : (s.notifyUnlocked p).supervisor = s.supervisor := by
  unfold State.notifyUnlocked; split <;> simp
@[simp] theorem State.notifyUnlocked_pending : (s.notifyUnlocked p).pending = s.pending := by
  unfold State.notifyUnlocked; split <;> simp
@[simp] theorem State.notifyUnlocked_draws : (s.notifyUnlocked p).draws = s.draws := by
  unfold State.notifyUnlocked; split <;> simp
end

section
variable (s : State) (p : Pen) (b : TrackState)
@[simp] theorem State.notifyIfLocked_link : (s.notifyIfLocked p b).link = s.link := by
  unfold State.notifyIfLocked; split <;> simp
@[simp] theorem State.notifyIfLocked_beam : (s.notifyIfLocked p b).beam = s.beam := by
  unfold State.notifyIfLocked; split <;> simp
@[simp] theorem State.notifyIfLocked_segments : (s.notifyIfLocked p b).segments = s.segments := by
  unfold State.notifyIfLocked; split <;> simp
@[simp] theorem State.notifyIfLocked_trackers : (s.notifyIfLocked p b).trackers = s.trackers := by
  unfold State.notifyIfLocked; split <;> simp
@[simp] theorem State.notifyIfLocked_injection : (s.notifyIfLocked p b).injection = s.injection := by
  unfold State.notifyIfLocked; split <;> simp
@[simp] theorem State.notifyIfLocked_menu : (s.notifyIfLocked p b).menu = s.menu := by
  unfold State.notifyIfLocked; split <;> simp
@[simp] theorem State.notifyIfLocked_decoder : (s.notifyIfLocked p b).decoder = s.decoder := by
  unfold State.notifyIfLocked; split <;> simp
@[simp] theorem State.notifyIfLocked_supervisor : (s.notifyIfLocked p b).supervisor = s.supervisor := by
  unfold State.notifyIfLocked; split <;> simp
@[simp] theorem State.notifyIfLocked_pending : (s.notifyIfLocked p b).pending = s.pending := by
  unfold State.notifyIfLocked; split <;> simp
@[simp] theorem State.notifyIfLocked_draws : (s.notifyIfLocked p b).draws = s.draws := by
  unfold State.notifyIfLocked; split <;> simp
end

section
variable (s : State) (p : Pen) (c : TrackClaim)
@[simp] theorem State.trackRequest_link : (s.trackRequest p c).link = s.link := by
  unfold State.trackRequest; dsimp only; split <;> simp
@[simp] theorem State.trackRequest_beam : (s.trackRequest p c).beam = s.beam := by
  unfold State.trackRequest; dsimp only; split <;> simp
@[simp] theorem State.trackRequest_segments : (s.trackRequest p c).segments = s.segments := by
  unfold State.trackRequest; dsimp only; split <;> simp
@[simp] theorem State.trackRequest_rewrite : (s.trackRequest p c).rewrite = s.rewrite := by
  unfold State.trackRequest; dsimp only; split <;> simp
@[simp] theorem State.trackRequest_pens : (s.trackRequest p c).pens = s.pens := by
  unfold State.trackRequest; dsimp only; split <;> simp
@[simp] theorem State.trackRequest_injection : (s.trackRequest p c).injection = s.injection := by
  unfold State.trackRequest; dsimp only; split <;> simp
@[simp] theorem State.trackRequest_regions : (s.trackRequest p c).regions = s.regions := by
  unfold State.trackRequest; dsimp only; split <;> simp
@[simp] theorem State.trackRequest_menu : (s.trackRequest p c).menu = s.menu := by
  unfold State.trackRequest; dsimp only; split <;> simp
@[simp] theorem State.trackRequest_decoder : (s.trackRequest p c).decoder = s.decoder := by
  unfold State.trackRequest; dsimp only; split <;> simp
@[simp] theorem State.trackRequest_supervisor : (s.trackRequest p c).supervisor = s.supervisor := by
  unfold State.trackRequest; dsimp only; split <;> simp
@[simp] theorem State.trackRequest_pending : (s.trackRequest p c).pending = s.pending := by
  unfold State.trackRequest; dsimp only; split <;> simp
@[simp] theorem State.trackRequest_draws : (s.trackRequest p c).draws = s.draws := by
  unfold State.trackRequest; dsimp only; split <;> simp
end

section
variable (s : State) (p : Pen) (c : PositionClaim)
@[simp] theorem State.placePosition_link : (s.placePosition p c).link = s.link := by
  unfold State.placePosition; dsimp only; repeat' split
  all_goals simp
@[simp] theorem State.placePosition_beam : (s.placePosition p c).beam = s.beam := by
  unfold State.placePosition; dsimp only; repeat' split
  all_goals simp
@[simp] theorem State.placePosition_segments : (s.placePosition p c).segments = s.segments := by
  unfold State.placePosition; dsimp only; repeat' split
  all_goals simp
@[simp] theorem State.placePosition_rewrite : (s.placePosition p c).rewrite = s.rewrite := by
  unfold State.placePosition; dsimp only; repeat' split
  all_goals simp
@[simp] theorem State.placePosition_pens : (s.placePosition p c).pens = s.pens := by
  unfold State.placePosition; dsimp only; repeat' split
  all_goals simp
@[simp] theorem State.placePosition_injection : (s.placePosition p c).injection = s.injection := by
  unfold State.placePosition; dsimp only; repeat' split
  all_goals simp
@[simp] theorem State.placePosition_regions : (s.placePosition p c).regions = s.regions := by
  unfold State.placePosition; dsimp only; repeat' split
  all_goals simp
@[simp] theorem State.placePosition_menu : (s.placePosition p c).menu = s.menu := by
  unfold State.placePosition; dsimp only; repeat' split
  all_goals simp
@[simp] theorem State.placePosition_decoder : (s.placePosition p c).decoder = s.decoder := by
  unfold State.placePosition; dsimp only; repeat' split
  all_goals simp
@[simp] theorem State.placePosition_supervisor : (s.placePosition p c).supervisor = s.supervisor := by
  unfold State.placePosition; dsimp only; repeat' split
  all_goals simp
@[simp] theorem State.placePosition_pending : (s.placePosition p c).pending = s.pending := by
  unfold State.placePosition; dsimp only; repeat' split
  all_goals simp
@[simp] theorem State.placePosition_draws : (s.placePosition p c).draws = s.draws := by
  unfold State.placePosition; dsimp only; repeat' split
  all_goals simp
end

section
variable (s : State) (p : Pen) (c : PositionClaim)
@[simp] theorem State.positionRequest_link : (s.positionRequest p c).link = s.link := by
  unfold State.positionRequest; dsimp only; split <;> simp
@[simp] theorem State.positionRequest_beam : (s.positionRequest p c).beam = s.beam := by
  unfold State.positionRequest; dsimp only; split <;> simp
@[simp] theorem State.positionRequest_segments : (s.positionRequest p c).segments = s.segments := by
  unfold State.positionRequest; dsimp only; split <;> simp
@[simp] theorem State.positionRequest_rewrite : (s.positionRequest p c).rewrite = s.rewrite := by
  unfold State.positionRequest; dsimp only; split <;> simp
@[simp] theorem State.positionRequest_pens : (s.positionRequest p c).pens = s.pens := by
  unfold State.positionRequest; dsimp only; split <;> simp
@[simp] theorem State.positionRequest_injection : (s.positionRequest p c).injection = s.injection := by
  unfold State.positionRequest; dsimp only; split <;> simp
@[simp] theorem State.positionRequest_regions : (s.positionRequest p c).regions = s.regions := by
  unfold State.positionRequest; dsimp only; split <;> simp
@[simp] theorem State.positionRequest_menu : (s.positionRequest p c).menu = s.menu := by
  unfold State.positionRequest; dsimp only; split <;> simp
@[simp] theorem State.positionRequest_decoder : (s.positionRequest p c).decoder = s.decoder := by
  unfold State.positionRequest; dsimp only; split <;> simp
@[simp] theorem State.positionRequest_supervisor : (s.positionRequest p c).supervisor = s.supervisor := by
  unfold State.positionRequest; dsimp only; split <;> simp
@[simp] theorem State.positionRequest_pending : (s.positionRequest p c).pending = s.pending := by
  unfold State.positionRequest; dsimp only; split <;> simp
@[simp] theorem State.positionRequest_draws : (s.positionRequest p c).draws = s.draws := by
  unfold State.positionRequest; dsimp only; split <;> simp
end

section
variable (s : State) (p : Pen)
@[simp] theorem State.coastLimitReached_link : (s.coastLimitReached p).link = s.link := by
  unfold State.coastLimitReached; dsimp only; split <;> simp
@[simp] theorem State.coastLimitReached_beam : (s.coastLimitReached p).beam = s.beam := by
  unfold State.coastLimitReached; dsimp only; split <;> simp
@[simp] theorem State.coastLimitReached_segments : (s.coastLimitReached p).segments = s.segments := by
  unfold State.coastLimitReached; dsimp only; split <;> simp
@[simp] theorem State.coastLimitReached_rewrite : (s.coastLimitReached p).rewrite = s.rewrite := by
  unfold State.coastLimitReached; dsimp only; split <;> simp
@[simp] theorem State.coastLimitReached_pens : (s.coastLimitReached p).pens = s.pens := by
  unfold State.coastLimitReached; dsimp only; split <;> simp
@[simp] theorem State.coastLimitReached_injection : (s.coastLimitReached p).injection = s.injection := by
  unfold State.coastLimitReached; dsimp only; split <;> simp
@[simp] theorem State.coastLimitReached_regions : (s.coastLimitReached p).regions = s.regions := by
  unfold State.coastLimitReached; dsimp only; split <;> simp
@[simp] theorem State.coastLimitReached_menu : (s.coastLimitReached p).menu = s.menu := by
  unfold State.coastLimitReached; dsimp only; split <;> simp
@[simp] theorem State.coastLimitReached_decoder : (s.coastLimitReached p).decoder = s.decoder := by
  unfold State.coastLimitReached; dsimp only; split <;> simp
@[simp] theorem State.coastLimitReached_supervisor : (s.coastLimitReached p).supervisor = s.supervisor := by
  unfold State.coastLimitReached; dsimp only; split <;> simp
@[simp] theorem State.coastLimitReached_pending : (s.coastLimitReached p).pending = s.pending := by
  unfold State.coastLimitReached; dsimp only; split <;> simp
@[simp] theorem State.coastLimitReached_draws : (s.coastLimitReached p).draws = s.draws := by
  unfold State.coastLimitReached; dsimp only; split <;> simp
end

section
variable (s : State) (p : Pen)
@[simp] theorem State.coast_link : (s.coast p).link = s.link := by
  unfold State.coast; dsimp only; split <;> simp
@[simp] theorem State.coast_beam : (s.coast p).beam = s.beam := by
  unfold State.coast; dsimp only; split <;> simp
@[simp] theorem State.coast_segments : (s.coast p).segments = s.segments := by
  unfold State.coast; dsimp only; split <;> simp
@[simp] theorem State.coast_injection : (s.coast p).injection = s.injection := by
  unfold State.coast; dsimp only; split <;> simp
@[simp] theorem State.coast_menu : (s.coast p).menu = s.menu := by
  unfold State.coast; dsimp only; split <;> simp
@[simp] theorem State.coast_decoder : (s.coast p).decoder = s.decoder := by
  unfold State.coast; dsimp only; split <;> simp
@[simp] theorem State.coast_supervisor : (s.coast p).supervisor = s.supervisor := by
  unfold State.coast; dsimp only; split <;> simp
@[simp] theorem State.coast_pending : (s.coast p).pending = s.pending := by
  unfold State.coast; dsimp only; split <;> simp
@[simp] theorem State.coast_draws : (s.coast p).draws = s.draws := by
  unfold State.coast; dsimp only; split <;> simp
end

section
variable (s : State) (p : Pen)
@[simp] theorem State.correct_link : (s.correct p).link = s.link := by
  unfold State.correct State.movedRequest State.lockedRequest; dsimp only; repeat' split
  all_goals simp
@[simp] theorem State.correct_beam : (s.correct p).beam = s.beam := by
  unfold State.correct State.movedRequest State.lockedRequest; dsimp only; repeat' split
  all_goals simp
@[simp] theorem State.correct_segments : (s.correct p).segments = s.segments := by
  unfold State.correct State.movedRequest State.lockedRequest; dsimp only; repeat' split
  all_goals simp
@[simp] theorem State.correct_rewrite : (s.correct p).rewrite = s.rewrite := by
  unfold State.correct State.movedRequest State.lockedRequest; dsimp only; repeat' split
  all_goals simp
@[simp] theorem State.correct_pens : (s.correct p).pens = s.pens := by
  unfold State.correct State.movedRequest State.lockedRequest; dsimp only; repeat' split
  all_goals simp
@[simp] theorem State.correct_injection : (s.correct p).injection = s.injection := by
  unfold State.correct State.movedRequest State.lockedRequest; dsimp only; repeat' split
  all_goals simp
@[simp] theorem State.correct_regions : (s.correct p).regions = s.regions := by
  unfold State.correct State.movedRequest State.lockedRequest; dsimp only; repeat' split
  all_goals simp
@[simp] theorem State.correct_menu : (s.correct p).menu = s.menu := by
  unfold State.correct State.movedRequest State.lockedRequest; dsimp only; repeat' split
  all_goals simp
@[simp] theorem State.correct_decoder : (s.correct p).decoder = s.decoder := by
  unfold State.correct State.movedRequest State.lockedRequest; dsimp only; repeat' split
  all_goals simp
@[simp] theorem State.correct_supervisor : (s.correct p).supervisor = s.supervisor := by
  unfold State.correct State.movedRequest State.lockedRequest; dsimp only; repeat' split
  all_goals simp
@[simp] theorem State.correct_pending : (s.correct p).pending = s.pending := by
  unfold State.correct State.movedRequest State.lockedRequest; dsimp only; repeat' split
  all_goals simp
@[simp] theorem State.correct_draws : (s.correct p).draws = s.draws := by
  unfold State.correct State.movedRequest State.lockedRequest; dsimp only; repeat' split
  all_goals simp
end

section
variable (s : State) (p : Pen)
@[simp] theorem State.trackerFrameClose_link : (s.trackerFrameClose p).link = s.link := by
  unfold State.trackerFrameClose; dsimp only; repeat' split
  all_goals simp
@[simp] theorem State.trackerFrameClose_beam : (s.trackerFrameClose p).beam = s.beam := by
  unfold State.trackerFrameClose; dsimp only; repeat' split
  all_goals simp
@[simp] theorem State.trackerFrameClose_segments : (s.trackerFrameClose p).segments = s.segments := by
  unfold State.trackerFrameClose; dsimp only; repeat' split
  all_goals simp
@[simp] theorem State.trackerFrameClose_injection : (s.trackerFrameClose p).injection = s.injection := by
  unfold State.trackerFrameClose; dsimp only; repeat' split
  all_goals simp
@[simp] theorem State.trackerFrameClose_menu : (s.trackerFrameClose p).menu = s.menu := by
  unfold State.trackerFrameClose; dsimp only; repeat' split
  all_goals simp
@[simp] theorem State.trackerFrameClose_decoder : (s.trackerFrameClose p).decoder = s.decoder := by
  unfold State.trackerFrameClose; dsimp only; repeat' split
  all_goals simp
@[simp] theorem State.trackerFrameClose_supervisor : (s.trackerFrameClose p).supervisor = s.supervisor := by
  unfold State.trackerFrameClose; dsimp only; repeat' split
  all_goals simp
@[simp] theorem State.trackerFrameClose_pending : (s.trackerFrameClose p).pending = s.pending := by
  unfold State.trackerFrameClose; dsimp only; repeat' split
  all_goals simp
@[simp] theorem State.trackerFrameClose_draws : (s.trackerFrameClose p).draws = s.draws := by
  unfold State.trackerFrameClose; dsimp only; repeat' split
  all_goals simp
end

section
variable (s : State) (p : Pen)
@[simp] theorem State.trackerExpiry_link : (s.trackerExpiry p).link = s.link := by
  unfold State.trackerExpiry; dsimp only; split <;> simp
@[simp] theorem State.trackerExpiry_beam : (s.trackerExpiry p).beam = s.beam := by
  unfold State.trackerExpiry; dsimp only; split <;> simp
@[simp] theorem State.trackerExpiry_segments : (s.trackerExpiry p).segments = s.segments := by
  unfold State.trackerExpiry; dsimp only; split <;> simp
@[simp] theorem State.trackerExpiry_injection : (s.trackerExpiry p).injection = s.injection := by
  unfold State.trackerExpiry; dsimp only; split <;> simp
@[simp] theorem State.trackerExpiry_menu : (s.trackerExpiry p).menu = s.menu := by
  unfold State.trackerExpiry; dsimp only; split <;> simp
@[simp] theorem State.trackerExpiry_decoder : (s.trackerExpiry p).decoder = s.decoder := by
  unfold State.trackerExpiry; dsimp only; split <;> simp
@[simp] theorem State.trackerExpiry_supervisor : (s.trackerExpiry p).supervisor = s.supervisor := by
  unfold State.trackerExpiry; dsimp only; split <;> simp
@[simp] theorem State.trackerExpiry_pending : (s.trackerExpiry p).pending = s.pending := by
  unfold State.trackerExpiry; dsimp only; split <;> simp
@[simp] theorem State.trackerExpiry_draws : (s.trackerExpiry p).draws = s.draws := by
  unfold State.trackerExpiry; dsimp only; split <;> simp
end

section
variable (s : State) (p : Pen) (x : Point)
@[simp] theorem State.dragSeed_link : (s.dragSeed p x).link = s.link := by
  unfold State.dragSeed; simp
@[simp] theorem State.dragSeed_beam : (s.dragSeed p x).beam = s.beam := by
  unfold State.dragSeed; simp
@[simp] theorem State.dragSeed_segments : (s.dragSeed p x).segments = s.segments := by
  unfold State.dragSeed; simp
@[simp] theorem State.dragSeed_injection : (s.dragSeed p x).injection = s.injection := by
  unfold State.dragSeed; simp
@[simp] theorem State.dragSeed_menu : (s.dragSeed p x).menu = s.menu := by
  unfold State.dragSeed; simp
@[simp] theorem State.dragSeed_decoder : (s.dragSeed p x).decoder = s.decoder := by
  unfold State.dragSeed; simp
@[simp] theorem State.dragSeed_supervisor : (s.dragSeed p x).supervisor = s.supervisor := by
  unfold State.dragSeed; simp
@[simp] theorem State.dragSeed_pending : (s.dragSeed p x).pending = s.pending := by
  unfold State.dragSeed; simp
@[simp] theorem State.dragSeed_draws : (s.dragSeed p x).draws = s.draws := by
  unfold State.dragSeed; simp
end

section
variable (s : State) (p : Pen)
@[simp] theorem State.turnTrackerOff_link : (s.turnTrackerOff p).link = s.link := by
  unfold State.turnTrackerOff; simp
@[simp] theorem State.turnTrackerOff_beam : (s.turnTrackerOff p).beam = s.beam := by
  unfold State.turnTrackerOff; simp
@[simp] theorem State.turnTrackerOff_segments : (s.turnTrackerOff p).segments = s.segments := by
  unfold State.turnTrackerOff; simp
@[simp] theorem State.turnTrackerOff_menu : (s.turnTrackerOff p).menu = s.menu := by
  unfold State.turnTrackerOff; simp
@[simp] theorem State.turnTrackerOff_decoder : (s.turnTrackerOff p).decoder = s.decoder := by
  unfold State.turnTrackerOff; simp
@[simp] theorem State.turnTrackerOff_supervisor : (s.turnTrackerOff p).supervisor = s.supervisor := by
  unfold State.turnTrackerOff; simp
@[simp] theorem State.turnTrackerOff_pending : (s.turnTrackerOff p).pending = s.pending := by
  unfold State.turnTrackerOff; simp
@[simp] theorem State.turnTrackerOff_draws : (s.turnTrackerOff p).draws = s.draws := by
  unfold State.turnTrackerOff; simp
end

section
variable (s : State) (p : Pen)
@[simp] theorem State.dragEnd_link : (s.dragEnd p).link = s.link := by
  unfold State.dragEnd; simp
@[simp] theorem State.dragEnd_beam : (s.dragEnd p).beam = s.beam := by
  unfold State.dragEnd; simp
@[simp] theorem State.dragEnd_segments : (s.dragEnd p).segments = s.segments := by
  unfold State.dragEnd; simp
@[simp] theorem State.dragEnd_menu : (s.dragEnd p).menu = s.menu := by
  unfold State.dragEnd; simp
@[simp] theorem State.dragEnd_decoder : (s.dragEnd p).decoder = s.decoder := by
  unfold State.dragEnd; simp
@[simp] theorem State.dragEnd_supervisor : (s.dragEnd p).supervisor = s.supervisor := by
  unfold State.dragEnd; simp
@[simp] theorem State.dragEnd_pending : (s.dragEnd p).pending = s.pending := by
  unfold State.dragEnd; simp
@[simp] theorem State.dragEnd_draws : (s.dragEnd p).draws = s.draws := by
  unfold State.dragEnd; simp
end

section
variable (s : State) (p : Pen)
@[simp] theorem State.trackerTipUp_link : (s.trackerTipUp p).link = s.link := by
  unfold State.trackerTipUp; dsimp only; split <;> simp
@[simp] theorem State.trackerTipUp_beam : (s.trackerTipUp p).beam = s.beam := by
  unfold State.trackerTipUp; dsimp only; split <;> simp
@[simp] theorem State.trackerTipUp_segments : (s.trackerTipUp p).segments = s.segments := by
  unfold State.trackerTipUp; dsimp only; split <;> simp
@[simp] theorem State.trackerTipUp_menu : (s.trackerTipUp p).menu = s.menu := by
  unfold State.trackerTipUp; dsimp only; split <;> simp
@[simp] theorem State.trackerTipUp_decoder : (s.trackerTipUp p).decoder = s.decoder := by
  unfold State.trackerTipUp; dsimp only; split <;> simp
@[simp] theorem State.trackerTipUp_supervisor : (s.trackerTipUp p).supervisor = s.supervisor := by
  unfold State.trackerTipUp; dsimp only; split <;> simp
@[simp] theorem State.trackerTipUp_pending : (s.trackerTipUp p).pending = s.pending := by
  unfold State.trackerTipUp; dsimp only; split <;> simp
@[simp] theorem State.trackerTipUp_draws : (s.trackerTipUp p).draws = s.draws := by
  unfold State.trackerTipUp; dsimp only; split <;> simp
end

section
variable (s : State) (p : Pen) (a : Arm) (k : Nat)
@[simp] theorem State.crossHit_link : (s.crossHit p a k).link = s.link := by
  unfold State.crossHit; dsimp only; split <;> simp
@[simp] theorem State.crossHit_beam : (s.crossHit p a k).beam = s.beam := by
  unfold State.crossHit; dsimp only; split <;> simp
@[simp] theorem State.crossHit_segments : (s.crossHit p a k).segments = s.segments := by
  unfold State.crossHit; dsimp only; split <;> simp
@[simp] theorem State.crossHit_rewrite : (s.crossHit p a k).rewrite = s.rewrite := by
  unfold State.crossHit; dsimp only; split <;> simp
@[simp] theorem State.crossHit_pens : (s.crossHit p a k).pens = s.pens := by
  unfold State.crossHit; dsimp only; split <;> simp
@[simp] theorem State.crossHit_injection : (s.crossHit p a k).injection = s.injection := by
  unfold State.crossHit; dsimp only; split <;> simp
@[simp] theorem State.crossHit_regions : (s.crossHit p a k).regions = s.regions := by
  unfold State.crossHit; dsimp only; split <;> simp
@[simp] theorem State.crossHit_menu : (s.crossHit p a k).menu = s.menu := by
  unfold State.crossHit; dsimp only; split <;> simp
@[simp] theorem State.crossHit_notices : (s.crossHit p a k).notices = s.notices := by
  unfold State.crossHit; dsimp only; split <;> simp
@[simp] theorem State.crossHit_decoder : (s.crossHit p a k).decoder = s.decoder := by
  unfold State.crossHit; dsimp only; split <;> simp
@[simp] theorem State.crossHit_supervisor : (s.crossHit p a k).supervisor = s.supervisor := by
  unfold State.crossHit; dsimp only; split <;> simp
@[simp] theorem State.crossHit_pending : (s.crossHit p a k).pending = s.pending := by
  unfold State.crossHit; dsimp only; split <;> simp
@[simp] theorem State.crossHit_draws : (s.crossHit p a k).draws = s.draws := by
  unfold State.crossHit; dsimp only; split <;> simp
end

/-! ### Pen engines -/

section
variable (s : State) (p : Pen) (k : Key) (x : Point)
@[simp] theorem State.recordHit_link : (s.recordHit p k x).link = s.link := by
  unfold State.recordHit; split <;> simp
@[simp] theorem State.recordHit_beam : (s.recordHit p k x).beam = s.beam := by
  unfold State.recordHit; split <;> simp
@[simp] theorem State.recordHit_segments : (s.recordHit p k x).segments = s.segments := by
  unfold State.recordHit; split <;> simp
@[simp] theorem State.recordHit_rewrite : (s.recordHit p k x).rewrite = s.rewrite := by
  unfold State.recordHit; split <;> simp
@[simp] theorem State.recordHit_trackers : (s.recordHit p k x).trackers = s.trackers := by
  unfold State.recordHit; split <;> simp
@[simp] theorem State.recordHit_injection : (s.recordHit p k x).injection = s.injection := by
  unfold State.recordHit; split <;> simp
@[simp] theorem State.recordHit_regions : (s.recordHit p k x).regions = s.regions := by
  unfold State.recordHit; split <;> simp
@[simp] theorem State.recordHit_menu : (s.recordHit p k x).menu = s.menu := by
  unfold State.recordHit; split <;> simp
@[simp] theorem State.recordHit_notices : (s.recordHit p k x).notices = s.notices := by
  unfold State.recordHit; split <;> simp
@[simp] theorem State.recordHit_decoder : (s.recordHit p k x).decoder = s.decoder := by
  unfold State.recordHit; split <;> simp
@[simp] theorem State.recordHit_supervisor : (s.recordHit p k x).supervisor = s.supervisor := by
  unfold State.recordHit; split <;> simp
@[simp] theorem State.recordHit_pending : (s.recordHit p k x).pending = s.pending := by
  unfold State.recordHit; split <;> simp
@[simp] theorem State.recordHit_draws : (s.recordHit p k x).draws = s.draws := by
  unfold State.recordHit; split <;> simp
end

section
variable (s : State) (p : Pen) (k : Key) (x : Point)
@[simp] theorem State.hit_link : (s.hit p k x).link = s.link := by
  unfold State.hit State.readyHit State.settledHit; repeat' split
  all_goals simp
@[simp] theorem State.hit_beam : (s.hit p k x).beam = s.beam := by
  unfold State.hit State.readyHit State.settledHit; repeat' split
  all_goals simp
@[simp] theorem State.hit_segments : (s.hit p k x).segments = s.segments := by
  unfold State.hit State.readyHit State.settledHit; repeat' split
  all_goals simp
@[simp] theorem State.hit_rewrite : (s.hit p k x).rewrite = s.rewrite := by
  unfold State.hit State.readyHit State.settledHit; repeat' split
  all_goals simp
@[simp] theorem State.hit_trackers : (s.hit p k x).trackers = s.trackers := by
  unfold State.hit State.readyHit State.settledHit; repeat' split
  all_goals simp
@[simp] theorem State.hit_injection : (s.hit p k x).injection = s.injection := by
  unfold State.hit State.readyHit State.settledHit; repeat' split
  all_goals simp
@[simp] theorem State.hit_regions : (s.hit p k x).regions = s.regions := by
  unfold State.hit State.readyHit State.settledHit; repeat' split
  all_goals simp
@[simp] theorem State.hit_menu : (s.hit p k x).menu = s.menu := by
  unfold State.hit State.readyHit State.settledHit; repeat' split
  all_goals simp
@[simp] theorem State.hit_notices : (s.hit p k x).notices = s.notices := by
  unfold State.hit State.readyHit State.settledHit; repeat' split
  all_goals simp
@[simp] theorem State.hit_decoder : (s.hit p k x).decoder = s.decoder := by
  unfold State.hit State.readyHit State.settledHit; repeat' split
  all_goals simp
@[simp] theorem State.hit_supervisor : (s.hit p k x).supervisor = s.supervisor := by
  unfold State.hit State.readyHit State.settledHit; repeat' split
  all_goals simp
@[simp] theorem State.hit_pending : (s.hit p k x).pending = s.pending := by
  unfold State.hit State.readyHit State.settledHit; repeat' split
  all_goals simp
@[simp] theorem State.hit_draws : (s.hit p k x).draws = s.draws := by
  unfold State.hit State.readyHit State.settledHit; repeat' split
  all_goals simp
end

section
variable (s : State) (n : Nat)
@[simp] theorem State.markSegment_link : (s.markSegment n).link = s.link := by
  unfold State.markSegment; simp
@[simp] theorem State.markSegment_beam : (s.markSegment n).beam = s.beam := by
  unfold State.markSegment; simp
@[simp] theorem State.markSegment_rewrite : (s.markSegment n).rewrite = s.rewrite := by
  unfold State.markSegment; simp
@[simp] theorem State.markSegment_pens : (s.markSegment n).pens = s.pens := by
  unfold State.markSegment; simp
@[simp] theorem State.markSegment_trackers : (s.markSegment n).trackers = s.trackers := by
  unfold State.markSegment; simp
@[simp] theorem State.markSegment_injection : (s.markSegment n).injection = s.injection := by
  unfold State.markSegment; simp
@[simp] theorem State.markSegment_regions : (s.markSegment n).regions = s.regions := by
  unfold State.markSegment; simp
@[simp] theorem State.markSegment_menu : (s.markSegment n).menu = s.menu := by
  unfold State.markSegment; simp
@[simp] theorem State.markSegment_notices : (s.markSegment n).notices = s.notices := by
  unfold State.markSegment; simp
@[simp] theorem State.markSegment_decoder : (s.markSegment n).decoder = s.decoder := by
  unfold State.markSegment; simp
@[simp] theorem State.markSegment_supervisor : (s.markSegment n).supervisor = s.supervisor := by
  unfold State.markSegment; simp
@[simp] theorem State.markSegment_pending : (s.markSegment n).pending = s.pending := by
  unfold State.markSegment; simp
@[simp] theorem State.markSegment_draws : (s.markSegment n).draws = s.draws := by
  unfold State.markSegment; simp
end

section
variable (s : State) (p : Pen) (n : Nat)
@[simp] theorem State.markPicked_link : (s.markPicked p n).link = s.link := by
  unfold State.markPicked; split <;> simp
@[simp] theorem State.markPicked_beam : (s.markPicked p n).beam = s.beam := by
  unfold State.markPicked; split <;> simp
@[simp] theorem State.markPicked_rewrite : (s.markPicked p n).rewrite = s.rewrite := by
  unfold State.markPicked; split <;> simp
@[simp] theorem State.markPicked_pens : (s.markPicked p n).pens = s.pens := by
  unfold State.markPicked; split <;> simp
@[simp] theorem State.markPicked_trackers : (s.markPicked p n).trackers = s.trackers := by
  unfold State.markPicked; split <;> simp
@[simp] theorem State.markPicked_injection : (s.markPicked p n).injection = s.injection := by
  unfold State.markPicked; split <;> simp
@[simp] theorem State.markPicked_regions : (s.markPicked p n).regions = s.regions := by
  unfold State.markPicked; split <;> simp
@[simp] theorem State.markPicked_menu : (s.markPicked p n).menu = s.menu := by
  unfold State.markPicked; split <;> simp
@[simp] theorem State.markPicked_notices : (s.markPicked p n).notices = s.notices := by
  unfold State.markPicked; split <;> simp
@[simp] theorem State.markPicked_decoder : (s.markPicked p n).decoder = s.decoder := by
  unfold State.markPicked; split <;> simp
@[simp] theorem State.markPicked_supervisor : (s.markPicked p n).supervisor = s.supervisor := by
  unfold State.markPicked; split <;> simp
@[simp] theorem State.markPicked_pending : (s.markPicked p n).pending = s.pending := by
  unfold State.markPicked; split <;> simp
@[simp] theorem State.markPicked_draws : (s.markPicked p n).draws = s.draws := by
  unfold State.markPicked; split <;> simp
end

section
variable (s : State) (p : Pen) (o : LastOutcome) (k : Option Key)
@[simp] theorem State.finishDelivery_link : (s.finishDelivery p o k).link = s.link := by
  unfold State.finishDelivery; simp
@[simp] theorem State.finishDelivery_beam : (s.finishDelivery p o k).beam = s.beam := by
  unfold State.finishDelivery; simp
@[simp] theorem State.finishDelivery_segments : (s.finishDelivery p o k).segments = s.segments := by
  unfold State.finishDelivery; simp
@[simp] theorem State.finishDelivery_rewrite : (s.finishDelivery p o k).rewrite = s.rewrite := by
  unfold State.finishDelivery; simp
@[simp] theorem State.finishDelivery_trackers : (s.finishDelivery p o k).trackers = s.trackers := by
  unfold State.finishDelivery; simp
@[simp] theorem State.finishDelivery_injection : (s.finishDelivery p o k).injection = s.injection := by
  unfold State.finishDelivery; simp
@[simp] theorem State.finishDelivery_regions : (s.finishDelivery p o k).regions = s.regions := by
  unfold State.finishDelivery; simp
@[simp] theorem State.finishDelivery_menu : (s.finishDelivery p o k).menu = s.menu := by
  unfold State.finishDelivery; simp
@[simp] theorem State.finishDelivery_notices : (s.finishDelivery p o k).notices = s.notices := by
  unfold State.finishDelivery; simp
@[simp] theorem State.finishDelivery_decoder : (s.finishDelivery p o k).decoder = s.decoder := by
  unfold State.finishDelivery; simp
@[simp] theorem State.finishDelivery_supervisor : (s.finishDelivery p o k).supervisor = s.supervisor := by
  unfold State.finishDelivery; simp
@[simp] theorem State.finishDelivery_pending : (s.finishDelivery p o k).pending = s.pending := by
  unfold State.finishDelivery; simp
@[simp] theorem State.finishDelivery_draws : (s.finishDelivery p o k).draws = s.draws := by
  unfold State.finishDelivery; simp
end

section
variable (s : State) (p : Pen) (n k : Nat) (c m : Bool)
@[simp] theorem State.menuPick_link : (s.menuPick p n k c m).link = s.link := by
  unfold State.menuPick; rfl
@[simp] theorem State.menuPick_beam : (s.menuPick p n k c m).beam = s.beam := by
  unfold State.menuPick; rfl
@[simp] theorem State.menuPick_segments : (s.menuPick p n k c m).segments = s.segments := by
  unfold State.menuPick; rfl
@[simp] theorem State.menuPick_rewrite : (s.menuPick p n k c m).rewrite = s.rewrite := by
  unfold State.menuPick; rfl
@[simp] theorem State.menuPick_pens : (s.menuPick p n k c m).pens = s.pens := by
  unfold State.menuPick; rfl
@[simp] theorem State.menuPick_trackers : (s.menuPick p n k c m).trackers = s.trackers := by
  unfold State.menuPick; rfl
@[simp] theorem State.menuPick_injection : (s.menuPick p n k c m).injection = s.injection := by
  unfold State.menuPick; rfl
@[simp] theorem State.menuPick_regions : (s.menuPick p n k c m).regions = s.regions := by
  unfold State.menuPick; rfl
@[simp] theorem State.menuPick_decoder : (s.menuPick p n k c m).decoder = s.decoder := by
  unfold State.menuPick; rfl
@[simp] theorem State.menuPick_supervisor : (s.menuPick p n k c m).supervisor = s.supervisor := by
  unfold State.menuPick; rfl
@[simp] theorem State.menuPick_pending : (s.menuPick p n k c m).pending = s.pending := by
  unfold State.menuPick; rfl
@[simp] theorem State.menuPick_draws : (s.menuPick p n k c m).draws = s.draws := by
  unfold State.menuPick; rfl
end

section
variable (s : State) (p : Pen) (k : Key) (x : Point) (c : Bool)
@[simp] theorem State.deliverPick_link : (s.deliverPick p k x c).link = s.link := by
  unfold State.deliverPick; dsimp only; split <;> simp
@[simp] theorem State.deliverPick_beam : (s.deliverPick p k x c).beam = s.beam := by
  unfold State.deliverPick; dsimp only; split <;> simp
@[simp] theorem State.deliverPick_injection : (s.deliverPick p k x c).injection = s.injection := by
  unfold State.deliverPick; dsimp only; split <;> simp
@[simp] theorem State.deliverPick_decoder : (s.deliverPick p k x c).decoder = s.decoder := by
  unfold State.deliverPick; dsimp only; split <;> simp
@[simp] theorem State.deliverPick_supervisor : (s.deliverPick p k x c).supervisor = s.supervisor := by
  unfold State.deliverPick; dsimp only; split <;> simp
@[simp] theorem State.deliverPick_pending : (s.deliverPick p k x c).pending = s.pending := by
  unfold State.deliverPick; dsimp only; split <;> simp
@[simp] theorem State.deliverPick_draws : (s.deliverPick p k x c).draws = s.draws := by
  unfold State.deliverPick; dsimp only; split <;> simp
end

section
variable (s : State) (p : Pen) (k : Key) (n i : Nat) (c : Bool)
@[simp] theorem State.deliverMenu_link : (s.deliverMenu p k n i c).link = s.link := by
  unfold State.deliverMenu; simp
@[simp] theorem State.deliverMenu_beam : (s.deliverMenu p k n i c).beam = s.beam := by
  unfold State.deliverMenu; simp
@[simp] theorem State.deliverMenu_rewrite : (s.deliverMenu p k n i c).rewrite = s.rewrite := by
  unfold State.deliverMenu; simp
@[simp] theorem State.deliverMenu_trackers : (s.deliverMenu p k n i c).trackers = s.trackers := by
  unfold State.deliverMenu; simp
@[simp] theorem State.deliverMenu_injection : (s.deliverMenu p k n i c).injection = s.injection := by
  unfold State.deliverMenu; simp
@[simp] theorem State.deliverMenu_regions : (s.deliverMenu p k n i c).regions = s.regions := by
  unfold State.deliverMenu; simp
@[simp] theorem State.deliverMenu_decoder : (s.deliverMenu p k n i c).decoder = s.decoder := by
  unfold State.deliverMenu; simp
@[simp] theorem State.deliverMenu_supervisor : (s.deliverMenu p k n i c).supervisor = s.supervisor := by
  unfold State.deliverMenu; simp
@[simp] theorem State.deliverMenu_pending : (s.deliverMenu p k n i c).pending = s.pending := by
  unfold State.deliverMenu; simp
@[simp] theorem State.deliverMenu_draws : (s.deliverMenu p k n i c).draws = s.draws := by
  unfold State.deliverMenu; simp
end

section
variable (s : State) (p : Pen) (r : Nat) (x : Point) (b : Bool)
@[simp] theorem State.deliverRegion_link : (s.deliverRegion p r x b).link = s.link := by
  unfold State.deliverRegion; simp
@[simp] theorem State.deliverRegion_beam : (s.deliverRegion p r x b).beam = s.beam := by
  unfold State.deliverRegion; simp
@[simp] theorem State.deliverRegion_segments : (s.deliverRegion p r x b).segments = s.segments := by
  unfold State.deliverRegion; simp
@[simp] theorem State.deliverRegion_rewrite : (s.deliverRegion p r x b).rewrite = s.rewrite := by
  unfold State.deliverRegion; simp
@[simp] theorem State.deliverRegion_trackers : (s.deliverRegion p r x b).trackers = s.trackers := by
  unfold State.deliverRegion; simp
@[simp] theorem State.deliverRegion_injection : (s.deliverRegion p r x b).injection = s.injection := by
  unfold State.deliverRegion; simp
@[simp] theorem State.deliverRegion_regions : (s.deliverRegion p r x b).regions = s.regions := by
  unfold State.deliverRegion; simp
@[simp] theorem State.deliverRegion_menu : (s.deliverRegion p r x b).menu = s.menu := by
  unfold State.deliverRegion; simp
@[simp] theorem State.deliverRegion_decoder : (s.deliverRegion p r x b).decoder = s.decoder := by
  unfold State.deliverRegion; simp
@[simp] theorem State.deliverRegion_supervisor : (s.deliverRegion p r x b).supervisor = s.supervisor := by
  unfold State.deliverRegion; simp
@[simp] theorem State.deliverRegion_pending : (s.deliverRegion p r x b).pending = s.pending := by
  unfold State.deliverRegion; simp
@[simp] theorem State.deliverRegion_draws : (s.deliverRegion p r x b).draws = s.draws := by
  unfold State.deliverRegion; simp
end

section
variable (s : State) (p : Pen) (o : HeldOutcome)
@[simp] theorem State.deliver_link : (s.deliver p o).link = s.link := by
  unfold State.deliver; repeat' split
  all_goals simp
@[simp] theorem State.deliver_beam : (s.deliver p o).beam = s.beam := by
  unfold State.deliver; repeat' split
  all_goals simp
@[simp] theorem State.deliver_injection : (s.deliver p o).injection = s.injection := by
  unfold State.deliver; repeat' split
  all_goals simp
@[simp] theorem State.deliver_decoder : (s.deliver p o).decoder = s.decoder := by
  unfold State.deliver; repeat' split
  all_goals simp
@[simp] theorem State.deliver_supervisor : (s.deliver p o).supervisor = s.supervisor := by
  unfold State.deliver; repeat' split
  all_goals simp
@[simp] theorem State.deliver_pending : (s.deliver p o).pending = s.pending := by
  unfold State.deliver; repeat' split
  all_goals simp
@[simp] theorem State.deliver_draws : (s.deliver p o).draws = s.draws := by
  unfold State.deliver; repeat' split
  all_goals simp
end

section
variable (s : State) (p : Pen) (o : HeldOutcome)
@[simp] theorem State.claimOutcome_link : (s.claimOutcome p o).link = s.link := by
  unfold State.claimOutcome; split <;> simp
@[simp] theorem State.claimOutcome_beam : (s.claimOutcome p o).beam = s.beam := by
  unfold State.claimOutcome; split <;> simp
@[simp] theorem State.claimOutcome_injection : (s.claimOutcome p o).injection = s.injection := by
  unfold State.claimOutcome; split <;> simp
@[simp] theorem State.claimOutcome_decoder : (s.claimOutcome p o).decoder = s.decoder := by
  unfold State.claimOutcome; split <;> simp
@[simp] theorem State.claimOutcome_supervisor : (s.claimOutcome p o).supervisor = s.supervisor := by
  unfold State.claimOutcome; split <;> simp
@[simp] theorem State.claimOutcome_pending : (s.claimOutcome p o).pending = s.pending := by
  unfold State.claimOutcome; split <;> simp
@[simp] theorem State.claimOutcome_draws : (s.claimOutcome p o).draws = s.draws := by
  unfold State.claimOutcome; split <;> simp
end

section
variable (s : State) (p : Pen) (v : Option Nat)
@[simp] theorem State.writeEcho_link : (s.writeEcho p v).link = s.link := by
  unfold State.writeEcho; split <;> simp
@[simp] theorem State.writeEcho_beam : (s.writeEcho p v).beam = s.beam := by
  unfold State.writeEcho; split <;> simp
@[simp] theorem State.writeEcho_segments : (s.writeEcho p v).segments = s.segments := by
  unfold State.writeEcho; split <;> simp
@[simp] theorem State.writeEcho_pens : (s.writeEcho p v).pens = s.pens := by
  unfold State.writeEcho; split <;> simp
@[simp] theorem State.writeEcho_trackers : (s.writeEcho p v).trackers = s.trackers := by
  unfold State.writeEcho; split <;> simp
@[simp] theorem State.writeEcho_injection : (s.writeEcho p v).injection = s.injection := by
  unfold State.writeEcho; split <;> simp
@[simp] theorem State.writeEcho_regions : (s.writeEcho p v).regions = s.regions := by
  unfold State.writeEcho; split <;> simp
@[simp] theorem State.writeEcho_menu : (s.writeEcho p v).menu = s.menu := by
  unfold State.writeEcho; split <;> simp
@[simp] theorem State.writeEcho_notices : (s.writeEcho p v).notices = s.notices := by
  unfold State.writeEcho; split <;> simp
@[simp] theorem State.writeEcho_decoder : (s.writeEcho p v).decoder = s.decoder := by
  unfold State.writeEcho; split <;> simp
@[simp] theorem State.writeEcho_supervisor : (s.writeEcho p v).supervisor = s.supervisor := by
  unfold State.writeEcho; split <;> simp
@[simp] theorem State.writeEcho_pending : (s.writeEcho p v).pending = s.pending := by
  unfold State.writeEcho; split <;> simp
@[simp] theorem State.writeEcho_draws : (s.writeEcho p v).draws = s.draws := by
  unfold State.writeEcho; split <;> simp
end

section
variable (s : State) (p : Pen) (c : Candidate) (k : List Key)
@[simp] theorem State.confirm_link : (s.confirm p c k).link = s.link := by
  unfold State.confirm; simp
@[simp] theorem State.confirm_beam : (s.confirm p c k).beam = s.beam := by
  unfold State.confirm; simp
@[simp] theorem State.confirm_injection : (s.confirm p c k).injection = s.injection := by
  unfold State.confirm; simp
@[simp] theorem State.confirm_decoder : (s.confirm p c k).decoder = s.decoder := by
  unfold State.confirm; simp
@[simp] theorem State.confirm_supervisor : (s.confirm p c k).supervisor = s.supervisor := by
  unfold State.confirm; simp
@[simp] theorem State.confirm_pending : (s.confirm p c k).pending = s.pending := by
  unfold State.confirm; simp
@[simp] theorem State.confirm_draws : (s.confirm p c k).draws = s.draws := by
  unfold State.confirm; simp
end

section
variable (s : State) (p : Pen) (c q : List Candidate) (k : List Key)
@[simp] theorem State.endWeighing_link : (s.endWeighing p c q k).link = s.link := by
  unfold State.endWeighing; dsimp only; repeat' split
  all_goals simp
@[simp] theorem State.endWeighing_beam : (s.endWeighing p c q k).beam = s.beam := by
  unfold State.endWeighing; dsimp only; repeat' split
  all_goals simp
@[simp] theorem State.endWeighing_injection : (s.endWeighing p c q k).injection = s.injection := by
  unfold State.endWeighing; dsimp only; repeat' split
  all_goals simp
@[simp] theorem State.endWeighing_decoder : (s.endWeighing p c q k).decoder = s.decoder := by
  unfold State.endWeighing; dsimp only; repeat' split
  all_goals simp
@[simp] theorem State.endWeighing_supervisor : (s.endWeighing p c q k).supervisor = s.supervisor := by
  unfold State.endWeighing; dsimp only; repeat' split
  all_goals simp
@[simp] theorem State.endWeighing_pending : (s.endWeighing p c q k).pending = s.pending := by
  unfold State.endWeighing; dsimp only; repeat' split
  all_goals simp
@[simp] theorem State.endWeighing_draws : (s.endWeighing p c q k).draws = s.draws := by
  unfold State.endWeighing; dsimp only; repeat' split
  all_goals simp
end

section
variable (s : State) (p : Pen)
@[simp] theorem State.weigh_link : (s.weigh p).link = s.link := by
  unfold State.weigh; simp
@[simp] theorem State.weigh_beam : (s.weigh p).beam = s.beam := by
  unfold State.weigh; simp
@[simp] theorem State.weigh_injection : (s.weigh p).injection = s.injection := by
  unfold State.weigh; simp
@[simp] theorem State.weigh_decoder : (s.weigh p).decoder = s.decoder := by
  unfold State.weigh; simp
@[simp] theorem State.weigh_supervisor : (s.weigh p).supervisor = s.supervisor := by
  unfold State.weigh; simp
@[simp] theorem State.weigh_pending : (s.weigh p).pending = s.pending := by
  unfold State.weigh; simp
@[simp] theorem State.weigh_draws : (s.weigh p).draws = s.draws := by
  unfold State.weigh; simp
end

section
variable (s : State) (p : Pen)
@[simp] theorem State.penFrameClose_link : (s.penFrameClose p).link = s.link := by
  unfold State.penFrameClose; split <;> simp
@[simp] theorem State.penFrameClose_beam : (s.penFrameClose p).beam = s.beam := by
  unfold State.penFrameClose; split <;> simp
@[simp] theorem State.penFrameClose_injection : (s.penFrameClose p).injection = s.injection := by
  unfold State.penFrameClose; split <;> simp
@[simp] theorem State.penFrameClose_decoder : (s.penFrameClose p).decoder = s.decoder := by
  unfold State.penFrameClose; split <;> simp
@[simp] theorem State.penFrameClose_supervisor : (s.penFrameClose p).supervisor = s.supervisor := by
  unfold State.penFrameClose; split <;> simp
@[simp] theorem State.penFrameClose_pending : (s.penFrameClose p).pending = s.pending := by
  unfold State.penFrameClose; split <;> simp
@[simp] theorem State.penFrameClose_draws : (s.penFrameClose p).draws = s.draws := by
  unfold State.penFrameClose; split <;> simp
end

section
variable (s : State) (p : Pen)
@[simp] theorem State.penExpiry_link : (s.penExpiry p).link = s.link := by
  unfold State.penExpiry; split <;> simp
@[simp] theorem State.penExpiry_beam : (s.penExpiry p).beam = s.beam := by
  unfold State.penExpiry; split <;> simp
@[simp] theorem State.penExpiry_segments : (s.penExpiry p).segments = s.segments := by
  unfold State.penExpiry; split <;> simp
@[simp] theorem State.penExpiry_trackers : (s.penExpiry p).trackers = s.trackers := by
  unfold State.penExpiry; split <;> simp
@[simp] theorem State.penExpiry_injection : (s.penExpiry p).injection = s.injection := by
  unfold State.penExpiry; split <;> simp
@[simp] theorem State.penExpiry_menu : (s.penExpiry p).menu = s.menu := by
  unfold State.penExpiry; split <;> simp
@[simp] theorem State.penExpiry_decoder : (s.penExpiry p).decoder = s.decoder := by
  unfold State.penExpiry; split <;> simp
@[simp] theorem State.penExpiry_supervisor : (s.penExpiry p).supervisor = s.supervisor := by
  unfold State.penExpiry; split <;> simp
@[simp] theorem State.penExpiry_pending : (s.penExpiry p).pending = s.pending := by
  unfold State.penExpiry; split <;> simp
@[simp] theorem State.penExpiry_draws : (s.penExpiry p).draws = s.draws := by
  unfold State.penExpiry; split <;> simp
end

section
variable (s : State) (p : Pen)
@[simp] theorem State.startAttempt_link : (s.startAttempt p).link = s.link := by
  unfold State.startAttempt; repeat' split
  all_goals simp
@[simp] theorem State.startAttempt_beam : (s.startAttempt p).beam = s.beam := by
  unfold State.startAttempt; repeat' split
  all_goals simp
@[simp] theorem State.startAttempt_segments : (s.startAttempt p).segments = s.segments := by
  unfold State.startAttempt; repeat' split
  all_goals simp
@[simp] theorem State.startAttempt_trackers : (s.startAttempt p).trackers = s.trackers := by
  unfold State.startAttempt; repeat' split
  all_goals simp
@[simp] theorem State.startAttempt_injection : (s.startAttempt p).injection = s.injection := by
  unfold State.startAttempt; repeat' split
  all_goals simp
@[simp] theorem State.startAttempt_menu : (s.startAttempt p).menu = s.menu := by
  unfold State.startAttempt; repeat' split
  all_goals simp
@[simp] theorem State.startAttempt_decoder : (s.startAttempt p).decoder = s.decoder := by
  unfold State.startAttempt; repeat' split
  all_goals simp
@[simp] theorem State.startAttempt_supervisor : (s.startAttempt p).supervisor = s.supervisor := by
  unfold State.startAttempt; repeat' split
  all_goals simp
@[simp] theorem State.startAttempt_pending : (s.startAttempt p).pending = s.pending := by
  unfold State.startAttempt; repeat' split
  all_goals simp
@[simp] theorem State.startAttempt_draws : (s.startAttempt p).draws = s.draws := by
  unfold State.startAttempt; repeat' split
  all_goals simp
end

section
variable (s : State) (p : Pen)
@[simp] theorem State.penTipDown_link : (s.penTipDown p).link = s.link := by
  unfold State.penTipDown; dsimp only; split <;> simp
@[simp] theorem State.penTipDown_beam : (s.penTipDown p).beam = s.beam := by
  unfold State.penTipDown; dsimp only; split <;> simp
@[simp] theorem State.penTipDown_segments : (s.penTipDown p).segments = s.segments := by
  unfold State.penTipDown; dsimp only; split <;> simp
@[simp] theorem State.penTipDown_trackers : (s.penTipDown p).trackers = s.trackers := by
  unfold State.penTipDown; dsimp only; split <;> simp
@[simp] theorem State.penTipDown_injection : (s.penTipDown p).injection = s.injection := by
  unfold State.penTipDown; dsimp only; split <;> simp
@[simp] theorem State.penTipDown_menu : (s.penTipDown p).menu = s.menu := by
  unfold State.penTipDown; dsimp only; split <;> simp
@[simp] theorem State.penTipDown_decoder : (s.penTipDown p).decoder = s.decoder := by
  unfold State.penTipDown; dsimp only; split <;> simp
@[simp] theorem State.penTipDown_supervisor : (s.penTipDown p).supervisor = s.supervisor := by
  unfold State.penTipDown; dsimp only; split <;> simp
@[simp] theorem State.penTipDown_pending : (s.penTipDown p).pending = s.pending := by
  unfold State.penTipDown; dsimp only; split <;> simp
@[simp] theorem State.penTipDown_draws : (s.penTipDown p).draws = s.draws := by
  unfold State.penTipDown; dsimp only; split <;> simp
end

section
variable (s : State) (p : Pen)
@[simp] theorem State.penTipUp_link : (s.penTipUp p).link = s.link := by
  unfold State.penTipUp State.settledTipUp; dsimp only; repeat' split
  all_goals simp
@[simp] theorem State.penTipUp_beam : (s.penTipUp p).beam = s.beam := by
  unfold State.penTipUp State.settledTipUp; dsimp only; repeat' split
  all_goals simp
@[simp] theorem State.penTipUp_segments : (s.penTipUp p).segments = s.segments := by
  unfold State.penTipUp State.settledTipUp; dsimp only; repeat' split
  all_goals simp
@[simp] theorem State.penTipUp_trackers : (s.penTipUp p).trackers = s.trackers := by
  unfold State.penTipUp State.settledTipUp; dsimp only; repeat' split
  all_goals simp
@[simp] theorem State.penTipUp_injection : (s.penTipUp p).injection = s.injection := by
  unfold State.penTipUp State.settledTipUp; dsimp only; repeat' split
  all_goals simp
@[simp] theorem State.penTipUp_menu : (s.penTipUp p).menu = s.menu := by
  unfold State.penTipUp State.settledTipUp; dsimp only; repeat' split
  all_goals simp
@[simp] theorem State.penTipUp_decoder : (s.penTipUp p).decoder = s.decoder := by
  unfold State.penTipUp State.settledTipUp; dsimp only; repeat' split
  all_goals simp
@[simp] theorem State.penTipUp_supervisor : (s.penTipUp p).supervisor = s.supervisor := by
  unfold State.penTipUp State.settledTipUp; dsimp only; repeat' split
  all_goals simp
@[simp] theorem State.penTipUp_pending : (s.penTipUp p).pending = s.pending := by
  unfold State.penTipUp State.settledTipUp; dsimp only; repeat' split
  all_goals simp
@[simp] theorem State.penTipUp_draws : (s.penTipUp p).draws = s.draws := by
  unfold State.penTipUp State.settledTipUp; dsimp only; repeat' split
  all_goals simp
end

/-! ### The frame passage and the frame close -/

section
variable (s : State) (p : Pen)
@[simp] theorem State.latchRegion_link : (s.latchRegion p).link = s.link := by
  unfold State.latchRegion; simp
@[simp] theorem State.latchRegion_beam : (s.latchRegion p).beam = s.beam := by
  unfold State.latchRegion; simp
@[simp] theorem State.latchRegion_segments : (s.latchRegion p).segments = s.segments := by
  unfold State.latchRegion; simp
@[simp] theorem State.latchRegion_rewrite : (s.latchRegion p).rewrite = s.rewrite := by
  unfold State.latchRegion; simp
@[simp] theorem State.latchRegion_trackers : (s.latchRegion p).trackers = s.trackers := by
  unfold State.latchRegion; simp
@[simp] theorem State.latchRegion_injection : (s.latchRegion p).injection = s.injection := by
  unfold State.latchRegion; simp
@[simp] theorem State.latchRegion_menu : (s.latchRegion p).menu = s.menu := by
  unfold State.latchRegion; simp
@[simp] theorem State.latchRegion_notices : (s.latchRegion p).notices = s.notices := by
  unfold State.latchRegion; simp
@[simp] theorem State.latchRegion_decoder : (s.latchRegion p).decoder = s.decoder := by
  unfold State.latchRegion; simp
@[simp] theorem State.latchRegion_supervisor : (s.latchRegion p).supervisor = s.supervisor := by
  unfold State.latchRegion; simp
@[simp] theorem State.latchRegion_pending : (s.latchRegion p).pending = s.pending := by
  unfold State.latchRegion; simp
@[simp] theorem State.latchRegion_draws : (s.latchRegion p).draws = s.draws := by
  unfold State.latchRegion; simp
end

section
variable (s : State) (p : Pen)
@[simp] theorem State.evaluateRegion_link : (s.evaluateRegion p).link = s.link := by
  unfold State.evaluateRegion; dsimp only; split <;> simp
@[simp] theorem State.evaluateRegion_beam : (s.evaluateRegion p).beam = s.beam := by
  unfold State.evaluateRegion; dsimp only; split <;> simp
@[simp] theorem State.evaluateRegion_injection : (s.evaluateRegion p).injection = s.injection := by
  unfold State.evaluateRegion; dsimp only; split <;> simp
@[simp] theorem State.evaluateRegion_decoder : (s.evaluateRegion p).decoder = s.decoder := by
  unfold State.evaluateRegion; dsimp only; split <;> simp
@[simp] theorem State.evaluateRegion_supervisor : (s.evaluateRegion p).supervisor = s.supervisor := by
  unfold State.evaluateRegion; dsimp only; split <;> simp
@[simp] theorem State.evaluateRegion_pending : (s.evaluateRegion p).pending = s.pending := by
  unfold State.evaluateRegion; dsimp only; split <;> simp
@[simp] theorem State.evaluateRegion_draws : (s.evaluateRegion p).draws = s.draws := by
  unfold State.evaluateRegion; dsimp only; split <;> simp
end

section
variable (s : State) (p : Pen)
@[simp] theorem State.regionFramePassage_link : (s.regionFramePassage p).link = s.link := by
  unfold State.regionFramePassage; split <;> simp
@[simp] theorem State.regionFramePassage_beam : (s.regionFramePassage p).beam = s.beam := by
  unfold State.regionFramePassage; split <;> simp
@[simp] theorem State.regionFramePassage_injection : (s.regionFramePassage p).injection = s.injection := by
  unfold State.regionFramePassage; split <;> simp
@[simp] theorem State.regionFramePassage_decoder : (s.regionFramePassage p).decoder = s.decoder := by
  unfold State.regionFramePassage; split <;> simp
@[simp] theorem State.regionFramePassage_supervisor : (s.regionFramePassage p).supervisor = s.supervisor := by
  unfold State.regionFramePassage; split <;> simp
@[simp] theorem State.regionFramePassage_pending : (s.regionFramePassage p).pending = s.pending := by
  unfold State.regionFramePassage; split <;> simp
@[simp] theorem State.regionFramePassage_draws : (s.regionFramePassage p).draws = s.draws := by
  unfold State.regionFramePassage; split <;> simp
end

section
variable (s : State) (c : IdleClaim)
@[simp] theorem State.idleRequest_link : (s.idleRequest c).link = s.link := by
  unfold State.idleRequest State.enterIdleReturn; split <;> simp
@[simp] theorem State.idleRequest_beam : (s.idleRequest c).beam = s.beam := by
  unfold State.idleRequest State.enterIdleReturn; split <;> simp
@[simp] theorem State.idleRequest_segments : (s.idleRequest c).segments = s.segments := by
  unfold State.idleRequest State.enterIdleReturn; split <;> simp
@[simp] theorem State.idleRequest_rewrite : (s.idleRequest c).rewrite = s.rewrite := by
  unfold State.idleRequest State.enterIdleReturn; split <;> simp
@[simp] theorem State.idleRequest_pens : (s.idleRequest c).pens = s.pens := by
  unfold State.idleRequest State.enterIdleReturn; split <;> simp
@[simp] theorem State.idleRequest_trackers : (s.idleRequest c).trackers = s.trackers := by
  unfold State.idleRequest State.enterIdleReturn; split <;> simp
@[simp] theorem State.idleRequest_injection : (s.idleRequest c).injection = s.injection := by
  unfold State.idleRequest State.enterIdleReturn; split <;> simp
@[simp] theorem State.idleRequest_regions : (s.idleRequest c).regions = s.regions := by
  unfold State.idleRequest State.enterIdleReturn; split <;> simp
@[simp] theorem State.idleRequest_decoder : (s.idleRequest c).decoder = s.decoder := by
  unfold State.idleRequest State.enterIdleReturn; split <;> simp
@[simp] theorem State.idleRequest_supervisor : (s.idleRequest c).supervisor = s.supervisor := by
  unfold State.idleRequest State.enterIdleReturn; split <;> simp
@[simp] theorem State.idleRequest_pending : (s.idleRequest c).pending = s.pending := by
  unfold State.idleRequest State.enterIdleReturn; split <;> simp
@[simp] theorem State.idleRequest_draws : (s.idleRequest c).draws = s.draws := by
  unfold State.idleRequest State.enterIdleReturn; split <;> simp
end

section
variable (s : State) (p : Pen)
@[simp] theorem State.idleReturn_link : (s.idleReturn p).link = s.link := by
  unfold State.idleReturn; simp
@[simp] theorem State.idleReturn_beam : (s.idleReturn p).beam = s.beam := by
  unfold State.idleReturn; simp
@[simp] theorem State.idleReturn_segments : (s.idleReturn p).segments = s.segments := by
  unfold State.idleReturn; simp
@[simp] theorem State.idleReturn_rewrite : (s.idleReturn p).rewrite = s.rewrite := by
  unfold State.idleReturn; simp
@[simp] theorem State.idleReturn_pens : (s.idleReturn p).pens = s.pens := by
  unfold State.idleReturn; simp
@[simp] theorem State.idleReturn_trackers : (s.idleReturn p).trackers = s.trackers := by
  unfold State.idleReturn; simp
@[simp] theorem State.idleReturn_injection : (s.idleReturn p).injection = s.injection := by
  unfold State.idleReturn; simp
@[simp] theorem State.idleReturn_regions : (s.idleReturn p).regions = s.regions := by
  unfold State.idleReturn; simp
@[simp] theorem State.idleReturn_decoder : (s.idleReturn p).decoder = s.decoder := by
  unfold State.idleReturn; simp
@[simp] theorem State.idleReturn_supervisor : (s.idleReturn p).supervisor = s.supervisor := by
  unfold State.idleReturn; simp
@[simp] theorem State.idleReturn_pending : (s.idleReturn p).pending = s.pending := by
  unfold State.idleReturn; simp
@[simp] theorem State.idleReturn_draws : (s.idleReturn p).draws = s.draws := by
  unfold State.idleReturn; simp
end

section
variable (s : State)
@[simp] theorem State.menuFramePassage_link : (s.menuFramePassage).link = s.link := by
  unfold State.menuFramePassage; dsimp only; repeat' split
  all_goals simp
@[simp] theorem State.menuFramePassage_beam : (s.menuFramePassage).beam = s.beam := by
  unfold State.menuFramePassage; dsimp only; repeat' split
  all_goals simp
@[simp] theorem State.menuFramePassage_segments : (s.menuFramePassage).segments = s.segments := by
  unfold State.menuFramePassage; dsimp only; repeat' split
  all_goals simp
@[simp] theorem State.menuFramePassage_rewrite : (s.menuFramePassage).rewrite = s.rewrite := by
  unfold State.menuFramePassage; dsimp only; repeat' split
  all_goals simp
@[simp] theorem State.menuFramePassage_pens : (s.menuFramePassage).pens = s.pens := by
  unfold State.menuFramePassage; dsimp only; repeat' split
  all_goals simp
@[simp] theorem State.menuFramePassage_trackers : (s.menuFramePassage).trackers = s.trackers := by
  unfold State.menuFramePassage; dsimp only; repeat' split
  all_goals simp
@[simp] theorem State.menuFramePassage_injection : (s.menuFramePassage).injection = s.injection := by
  unfold State.menuFramePassage; dsimp only; repeat' split
  all_goals simp
@[simp] theorem State.menuFramePassage_regions : (s.menuFramePassage).regions = s.regions := by
  unfold State.menuFramePassage; dsimp only; repeat' split
  all_goals simp
@[simp] theorem State.menuFramePassage_decoder : (s.menuFramePassage).decoder = s.decoder := by
  unfold State.menuFramePassage; dsimp only; repeat' split
  all_goals simp
@[simp] theorem State.menuFramePassage_supervisor : (s.menuFramePassage).supervisor = s.supervisor := by
  unfold State.menuFramePassage; dsimp only; repeat' split
  all_goals simp
@[simp] theorem State.menuFramePassage_pending : (s.menuFramePassage).pending = s.pending := by
  unfold State.menuFramePassage; dsimp only; repeat' split
  all_goals simp
@[simp] theorem State.menuFramePassage_draws : (s.menuFramePassage).draws = s.draws := by
  unfold State.menuFramePassage; dsimp only; repeat' split
  all_goals simp
end

section
variable (s : State) (b : PassageBlock)
@[simp] theorem State.blockPassage_link : (s.blockPassage b).link = s.link := by
  cases b <;> simp [State.blockPassage]
@[simp] theorem State.blockPassage_beam : (s.blockPassage b).beam = s.beam := by
  cases b <;> simp [State.blockPassage]
@[simp] theorem State.blockPassage_injection : (s.blockPassage b).injection = s.injection := by
  cases b <;> simp [State.blockPassage]
@[simp] theorem State.blockPassage_decoder : (s.blockPassage b).decoder = s.decoder := by
  cases b <;> simp [State.blockPassage]
@[simp] theorem State.blockPassage_supervisor : (s.blockPassage b).supervisor = s.supervisor := by
  cases b <;> simp [State.blockPassage]
@[simp] theorem State.blockPassage_pending : (s.blockPassage b).pending = s.pending := by
  cases b <;> simp [State.blockPassage]
@[simp] theorem State.blockPassage_draws : (s.blockPassage b).draws = s.draws := by
  cases b <;> simp [State.blockPassage]
end

section
variable (s : State) (b : CloseBlock)
@[simp] theorem State.blockClose_link : (s.blockClose b).link = s.link := by
  cases b <;> simp [State.blockClose]
@[simp] theorem State.blockClose_beam : (s.blockClose b).beam = s.beam := by
  cases b <;> simp [State.blockClose]
@[simp] theorem State.blockClose_injection : (s.blockClose b).injection = s.injection := by
  cases b <;> simp [State.blockClose]
@[simp] theorem State.blockClose_decoder : (s.blockClose b).decoder = s.decoder := by
  cases b <;> simp [State.blockClose]
@[simp] theorem State.blockClose_supervisor : (s.blockClose b).supervisor = s.supervisor := by
  cases b <;> simp [State.blockClose]
@[simp] theorem State.blockClose_pending : (s.blockClose b).pending = s.pending := by
  cases b <;> simp [State.blockClose]
@[simp] theorem State.blockClose_draws : (s.blockClose b).draws = s.draws := by
  cases b <;> simp [State.blockClose]
end

section
variable (s : State) (b : CloseBlock)
@[simp] theorem State.blockExpiry_link : (s.blockExpiry b).link = s.link := by
  cases b <;> simp [State.blockExpiry]
@[simp] theorem State.blockExpiry_beam : (s.blockExpiry b).beam = s.beam := by
  cases b <;> simp [State.blockExpiry]
@[simp] theorem State.blockExpiry_segments : (s.blockExpiry b).segments = s.segments := by
  cases b <;> simp [State.blockExpiry]
@[simp] theorem State.blockExpiry_injection : (s.blockExpiry b).injection = s.injection := by
  cases b <;> simp [State.blockExpiry]
@[simp] theorem State.blockExpiry_menu : (s.blockExpiry b).menu = s.menu := by
  cases b <;> simp [State.blockExpiry]
@[simp] theorem State.blockExpiry_decoder : (s.blockExpiry b).decoder = s.decoder := by
  cases b <;> simp [State.blockExpiry]
@[simp] theorem State.blockExpiry_supervisor : (s.blockExpiry b).supervisor = s.supervisor := by
  cases b <;> simp [State.blockExpiry]
@[simp] theorem State.blockExpiry_pending : (s.blockExpiry b).pending = s.pending := by
  cases b <;> simp [State.blockExpiry]
@[simp] theorem State.blockExpiry_draws : (s.blockExpiry b).draws = s.draws := by
  cases b <;> simp [State.blockExpiry]
end

/-- What every action of a list of actions leaves as it was, the whole list leaves as it was. -/
theorem foldl_keeps {α β γ : Type} (f : α → β → α) (g : α → γ) (h : ∀ a b, g (f a b) = g a) (l : List β) (a : α) :
    g (l.foldl f a) = g a := by
  induction l generalizing a with
  | nil => rfl
  | cons b l ih => rw [List.foldl_cons, ih, h]

section
variable (s : State) (order : List CloseBlock)
@[simp] theorem State.frameClose_link : (s.frameClose order).link = s.link :=
  foldl_keeps _ State.link (fun a b => State.blockClose_link a b) _ _
@[simp] theorem State.frameClose_beam : (s.frameClose order).beam = s.beam :=
  foldl_keeps _ State.beam (fun a b => State.blockClose_beam a b) _ _
@[simp] theorem State.frameClose_injection : (s.frameClose order).injection = s.injection :=
  foldl_keeps _ State.injection (fun a b => State.blockClose_injection a b) _ _
@[simp] theorem State.frameClose_decoder : (s.frameClose order).decoder = s.decoder :=
  foldl_keeps _ State.decoder (fun a b => State.blockClose_decoder a b) _ _
@[simp] theorem State.frameClose_pending : (s.frameClose order).pending = s.pending :=
  foldl_keeps _ State.pending (fun a b => State.blockClose_pending a b) _ _
@[simp] theorem State.frameClose_draws : (s.frameClose order).draws = s.draws :=
  foldl_keeps _ State.draws (fun a b => State.blockClose_draws a b) _ _
/-- R169: the frame close restarts or stops the frame timer, and raises no fault. -/
@[simp] theorem State.frameClose_supervisor : (s.frameClose order).supervisor = s.supervisor.frameClose :=
  foldl_keeps _ State.supervisor (fun a b => State.blockClose_supervisor a b) _ _
end

end Sys2Proof.Machine
end

