-- ==== Sys2Proof/Laws/Orders.lean ====
section
/-! SUPPORT. What the words of a control order read as, and what their arrival does: with upstream ready high and the
Decoder IDLE, the order's check and its action, at once. -/

namespace Sys2Proof.Machine

/-! ### The fields of a CTRL word -/

theorem ctrlWord_kind (code count : Nat) (arg : Arg) : wordKind (ctrlWord code count arg) = .ctrl := by
  have h : field (ctrlWord code count arg) 28 4 = 8 := by
    have : (ctrlWord code count arg).extractLsb' 28 4 = 8#4 := by
      unfold ctrlWord
      ext i hi
      simp only [BitVec.getElem_extractLsb', BitVec.getLsbD_append]
      interval_cases i <;> simp
    simp [field, this]
  simp [wordKind, h]

@[simp] theorem ctrlArg_ctrlWord (code count : Nat) (arg : Arg) : ctrlArg (ctrlWord code count arg) = arg := by
  unfold ctrlWord ctrlArg
  ext i hi
  simp only [BitVec.getElem_extractLsb', BitVec.getLsbD_append]
  simp [hi, BitVec.getLsbD_eq_getElem]

theorem ctrlCount_ctrlWord (code count : Nat) (arg : Arg) : ctrlCount (ctrlWord code count arg) = count % 16 := by
  have : (ctrlWord code count arg).extractLsb' 16 4 = BitVec.ofNat 4 count := by
    unfold ctrlWord
    ext i hi
    simp only [BitVec.getElem_extractLsb', BitVec.getLsbD_append]
    have h1 : ¬ 16 + i < 16 := by omega
    have h2 : 16 + i - 16 = i := by omega
    simp [h1, h2, hi, BitVec.getLsbD_eq_getElem]
  simp [ctrlCount, field, this]

theorem ctrlCode_ctrlWord (code count : Nat) (arg : Arg) : ctrlCode (ctrlWord code count arg) = code % 256 := by
  have : (ctrlWord code count arg).extractLsb' 20 8 = BitVec.ofNat 8 code := by
    unfold ctrlWord
    ext i hi
    simp only [BitVec.getElem_extractLsb', BitVec.getLsbD_append]
    have h1 : ¬ 20 + i < 16 := by omega
    have h2 : ¬ 20 + i - 16 < 4 := by omega
    have h3 : 20 + i - 16 - 4 = i := by omega
    simp [h1, h2, h3, hi, BitVec.getLsbD_eq_getElem]
  simp [ctrlCode, field, this]

/-- R179: the code of an order names that order. -/
@[simp] theorem orderOfCode_code (o : OrderName) (count : Nat) (arg : Arg) :
    orderOfCode (ctrlCode (ctrlWord o.code count arg)) = some o := by
  rw [ctrlCode_ctrlWord]
  cases o <;> rfl

/-! ### The subject, channel and parameters of a QUERY -/

theorem querySubject_queryArg (subject : Nat) (ch : BitVec 2) (ps : BitVec 10) :
    querySubject (queryArg subject ch ps) = subject % 16 := by
  have : (queryArg subject ch ps).extractLsb' 12 4 = BitVec.ofNat 4 subject := by
    unfold queryArg
    ext i hi
    simp only [BitVec.getElem_extractLsb', BitVec.getLsbD_append]
    have h1 : ¬ 12 + i < 10 := by omega
    have h2 : ¬ 12 + i - 10 < 2 := by omega
    have h3 : 12 + i - 10 - 2 = i := by omega
    simp [h1, h2, h3, hi, BitVec.getLsbD_eq_getElem]
  simp [querySubject, field, this]

@[simp] theorem queryChannel_queryArg (subject : Nat) (ch : BitVec 2) (ps : BitVec 10) :
    queryChannel (queryArg subject ch ps) = ch.toNat := by
  have : (queryArg subject ch ps).extractLsb' 10 2 = ch := by
    unfold queryArg
    ext i hi
    simp only [BitVec.getElem_extractLsb', BitVec.getLsbD_append]
    have h1 : ¬ 10 + i < 10 := by omega
    have h2 : 10 + i - 10 = i := by omega
    simp [h1, h2, hi, BitVec.getLsbD_eq_getElem]
  simp [queryChannel, field, this]

theorem queryArg_field (subject : Nat) (ch : BitVec 2) (ps : BitVec 10) (lo len : Nat) (h : lo + len ≤ 10) :
    field (queryArg subject ch ps) lo len = field ps lo len := by
  have : (queryArg subject ch ps).extractLsb' lo len = ps.extractLsb' lo len := by
    unfold queryArg
    ext i hi
    simp only [BitVec.getElem_extractLsb', BitVec.getLsbD_append]
    have h1 : lo + i < 10 := by omega
    simp [h1]
  simp [field, this]

theorem queryArg_bit0 (subject : Nat) (ch : BitVec 2) (ps : BitVec 10) :
    (queryArg subject ch ps).getLsbD 0 = ps.getLsbD 0 := by
  unfold queryArg
  rw [BitVec.getLsbD_append]
  simp

/-! ### Arrivals -/

/-- While upstream ready is low, no word of an order is taken (R1). -/
theorem State.arrive_not_ready {s : State} (h : s.upstreamReady = false) (w : Word) : s.arrive w = s := by
  simp [State.arrive, h]

theorem State.upstreamReady_of_decoder {s : State} (h : s.link.held = none) {d : ControlDecoder}
    (hd : ∃ ctrl got, d.state = .collecting ctrl got) : ({ s with decoder := d }).upstreamReady = true := by
  obtain ⟨c, g, hd⟩ := hd
  simp [State.upstreamReady, h, hd, DecoderState.isHeld]

theorem State.held_of_ready {s : State} (h : s.upstreamReady = true) : s.link.held = none := by
  simp [State.upstreamReady] at h
  exact h.1.1

/-- The data words of an order that is being collected. -/
theorem State.arriveAll_collect (s : State) (hh : s.link.held = none) (ctrl : Word) (got data : List Word)
    (hne : data ≠ []) (hn : got.length + data.length = ctrlCount ctrl) :
    ({ s with decoder := { s.decoder with state := .collecting ctrl got } }).arriveAll data =
      ({ s with decoder := { s.decoder with state := .idle } }).takeOrder ctrl (got ++ data) := by
  induction data generalizing got with
  | nil => exact absurd rfl hne
  | cons w rest ih =>
    have hr : ({ s with decoder := { s.decoder with state := .collecting ctrl got } }).upstreamReady = true :=
      State.upstreamReady_of_decoder hh ⟨_, _, rfl⟩
    cases rest with
    | nil =>
      have : ¬ got.length + 1 < ctrlCount ctrl := by simp at hn; omega
      simp [State.arriveAll, State.arrive, hr, State.takeData, this]
    | cons x rest =>
      have h1 : got.length + 1 < ctrlCount ctrl := by simp at hn; omega
      have := ih (got ++ [w]) (by simp) (by simp at hn ⊢; omega)
      simp [State.arriveAll, State.arrive, hr, State.takeData, h1] at this ⊢
      exact this

/-- R158, R159: with upstream ready high and the Decoder IDLE, the words of an order are taken and the order is
checked. -/
theorem State.arriveOrder_taken (s : State) (hr : s.upstreamReady = true) (hi : s.decoder.state = .idle)
    (o : OrderName) (arg : Arg) (data : List Word) (hn : data.length ≤ 15) :
    s.arriveOrder o arg data = s.takeOrder (ctrlWord o.code data.length arg) data := by
  have hk := ctrlWord_kind o.code data.length arg
  have hc := ctrlCount_ctrlWord o.code data.length arg
  rw [Nat.mod_eq_of_lt (by omega)] at hc
  have hs : ({ s with decoder := { s.decoder with state := .idle } } : State) = s := by rw [← hi]
  have hw : s.arrive (ctrlWord o.code data.length arg) = s.takeCtrl (ctrlWord o.code data.length arg) := by
    simp [State.arrive, hr, hi, State.takeWord, hk]
  unfold State.arriveOrder orderWords
  rw [State.arriveAll, List.foldl_cons, hw]
  cases data with
  | nil =>
    have hz : ctrlCount (ctrlWord o.code 0 arg) = 0 := hc
    simp [State.takeCtrl, hz]
  | cons w rest =>
    have hne : ctrlCount (ctrlWord o.code (w :: rest).length arg) ≠ 0 := by rw [hc]; simp
    have := State.arriveAll_collect s (State.held_of_ready hr) (ctrlWord o.code (w :: rest).length arg) []
      (w :: rest) (by simp) (by rw [hc]; simp)
    rw [hs] at this
    rw [State.takeCtrl, if_neg hne]
    simpa [State.arriveAll] using this

/-- R159, R160: with its right data count, the order acts. -/
theorem State.arriveOrder_acts (s : State) (hr : s.upstreamReady = true) (hi : s.decoder.state = .idle)
    (o : OrderName) (arg : Arg) (data : List Word) (hn : data.length ≤ 15)
    (hc : o.countRight arg data.length = true) :
    s.arriveOrder o arg data = s.act o (ctrlWord o.code data.length arg) data := by
  rw [State.arriveOrder_taken s hr hi o arg data hn, State.takeOrder]
  simp [hc]

/-- R159: with a wrong data count, the order raises BAD CONTROL and has no other effect. -/
theorem State.arriveOrder_badControl (s : State) (hr : s.upstreamReady = true) (hi : s.decoder.state = .idle)
    (o : OrderName) (arg : Arg) (data : List Word) (hn : data.length ≤ 15)
    (hc : o.countRight arg data.length = false) :
    s.arriveOrder o arg data = s.raiseFault .badControl (ctrlWord o.code data.length arg) := by
  rw [State.arriveOrder_taken s hr hi o arg data hn, State.takeOrder]
  simp [hc]

/-- The data words of the images of a load. -/
@[simp] theorem pairUp_imageWords (images : List (Word × Word)) : pairUp (imageWords images) = some images := by
  induction images with
  | nil => rfl
  | cons i rest ih => obtain ⟨a, b⟩ := i; simp [imageWords, pairUp, ih]

@[simp] theorem imageWords_length (images : List (Word × Word)) : (imageWords images).length = 2 * images.length := by
  induction images with
  | nil => rfl
  | cons i rest ih => obtain ⟨a, b⟩ := i; simp [imageWords, ih]; omega

theorem decodeItems_length {ws : List Word} {items : List Item} (h : decodeItems ws = some items) :
    items.length = ws.length := by
  induction ws generalizing items with
  | nil => simp [decodeItems] at h; simp [← h]
  | cons w ws ih =>
    simp only [decodeItems] at h
    split at h
    · rename_i h2
      simp at h
      simp [← h, ih h2]
    · simp at h

end Sys2Proof.Machine
end

