-- ==== Sys2Proof/Laws/Stated.lean ====
section
/-! SUPPORT. The vocabulary of the statements in the model's own terms, once for each definition of
`Sys2Proof.Stated` that a proof would otherwise unfold. -/

namespace Sys2Proof.Stated

open Sys2Proof.Machine

/-! ### Orders -/

/-- The words of an order with the right data count make it act. -/
theorem Listens.arriveOrder_acts {s : State} (h : Listens s) (o : OrderName) (arg : Arg) (data : List Word)
    (hn : data.length ≤ 15) (hc : o.countRight arg data.length = true) :
    s.arriveOrder o arg data = s.act o (ctrlWord o.code data.length arg) data := by
  have hr : s.upstreamReady = true := by simp [State.upstreamReady, h.1, h.2, DecoderState.isHeld]
  exact State.arriveOrder_acts s hr h.2 o arg data hn hc

theorem Listens.upstreamReady {s : State} (h : Listens s) : s.upstreamReady = true := by
  simp [State.upstreamReady, h.1, h.2, DecoderState.isHeld]

theorem ctrl_eq_ctrlWord (code n : Nat) (arg : Arg) (h : code < 256) (hn : n < 16) :
    ctrl code n arg = ctrlWord code n arg := by
  have fields : ∀ (x : BitVec 8) (y : BitVec 4) (z : BitVec 16),
      ((8#4 ++ x ++ y ++ z : BitVec 32)).toNat = 0x80000000 + x.toNat * 2 ^ 20 + y.toNat * 2 ^ 16 + z.toNat := by
    intro x y z
    simp only [BitVec.toNat_append]
    have := x.isLt
    have := y.isLt
    have := z.isLt
    rw [← Nat.shiftLeft_add_eq_or_of_lt (by omega), ← Nat.shiftLeft_add_eq_or_of_lt (by omega),
      ← Nat.shiftLeft_add_eq_or_of_lt (by omega)]
    simp [Nat.shiftLeft_eq]
    ring
  apply BitVec.eq_of_toNat_eq
  have := arg.isLt
  rw [show ctrlWord code n arg = (8#4 ++ BitVec.ofNat 8 code ++ BitVec.ofNat 4 n ++ arg : BitVec 32) from rfl, fields]
  simp [ctrl, Nat.mod_eq_of_lt h, Nat.mod_eq_of_lt hn]
  omega

theorem queryCtrl_eq_ctrlWord (subject : Nat) (h : subject < 16) (ch : BitVec 2) (ps : BitVec 10) :
    queryCtrl subject ch ps = ctrlWord 0x7F 0 (queryArg subject ch ps) := by
  rw [← ctrl_eq_ctrlWord 0x7F 0 _ (by decide) (by decide)]
  unfold queryCtrl ctrl
  congr 1
  unfold queryArg
  simp only [BitVec.toNat_append]
  have := ch.isLt
  have := ps.isLt
  rw [← Nat.shiftLeft_add_eq_or_of_lt (by omega), ← Nat.shiftLeft_add_eq_or_of_lt (by omega)]
  simp [Nat.shiftLeft_eq, Nat.mod_eq_of_lt h]
  omega

theorem argPen_eq_penOf (arg : Arg) : argPen arg = penOf arg := by simp [argPen, penOfBit, penOf]

theorem decodeMode_eq_modeRecord (fence : Fence) (arg : Arg) (w : Word) :
    decodeMode fence arg w = modeRecord fence arg w := by
  unfold decodeMode modeRecord modeOfCode
  congr 1
  have : field arg 12 2 < 4 := by unfold field; exact (arg.extractLsb' 12 2).isLt
  generalize field arg 12 2 = k at *
  rcases k with _ | _ | _ | _ | k <;> simp

/-! ### Room, claims and channels -/

theorem onlyChannel_eq_channelSet (c : Nat) : onlyChannel c = channelSet c := by
  unfold onlyChannel channelSet
  apply BitVec.eq_of_toNat_eq
  simp [BitVec.toNat_shiftLeft, Nat.shiftLeft_eq]

theorem noClaims_iff (s : State) : NoClaims s ↔ s.claims.any = false := by
  unfold NoClaims ClaimsWaiting.any State.claims
  constructor
  · rintro ⟨h1, h2, h3, h4⟩
    have ha := h3 .a
    have hb := h3 .b
    have h2a : s.pens.a.attempt.isHolding = false := by
      cases h : s.pens.a.attempt <;> simp [AttemptState.isHolding]
      exact h2 .a _ h
    have h2b : s.pens.b.attempt.isHolding = false := by
      cases h : s.pens.b.attempt <;> simp [AttemptState.isHolding]
      exact h2 .b _ h
    have h1' : s.decoder.state.isHeld = false := by
      cases h : s.decoder.state <;> simp [DecoderState.isHeld]
      exact h1 _ h
    simp_all [State.tracker, Pair.get]
  · intro h
    simp only [Bool.or_eq_false_iff] at h
    obtain ⟨⟨⟨⟨⟨⟨⟨h1, h2⟩, h3⟩, h4⟩, h5⟩, h6⟩, h7⟩, h8⟩ := h
    refine ⟨fun c hc => by simp [hc, DecoderState.isHeld] at h1, fun p o hc => ?_, fun p => ?_, ?_⟩
    · cases p <;> simp_all [State.pen, Pair.get, AttemptState.isHolding]
    · cases p <;> simp_all [State.tracker, Pair.get]
    · simpa using h8

theorem room_iff (s : State) : Room s ↔ s.hasRoom = true := by
  unfold State.hasRoom Room State.entryFree State.freeEntries Config.queueEntries Config.keptForFaults
  rw [Bool.and_eq_true, Bool.not_eq_true', ← noClaims_iff, decide_eq_true_iff]
  constructor <;> rintro ⟨h, h'⟩ <;> exact ⟨by omega, h'⟩

theorem not_room_iff (s : State) : ¬ Room s ↔ s.hasRoom = false := by rw [room_iff]; simp

theorem positionQueued_eq_false_iff (s : State) (p : Pen) : s.positionQueued p = false ↔
    ∀ n ∈ s.notices.queue, ∀ c, n.body = .position c → n.pen ≠ some p := by
  unfold State.positionQueued
  rw [List.any_eq_false]
  refine forall₂_congr fun n _ => ?_
  unfold Notice.isPositionOf
  cases h : n.body <;> simp

/-! ### Grants -/

theorem waiting_iff (s : State) (c : Claimant) : Waiting s c ↔ s.grantable c = true := by
  cases c with
  | decoder => unfold State.grantable Waiting DecoderState.isHeld; cases s.decoder.state <;> simp
  | penEngine p =>
    unfold State.grantable Waiting AttemptState.isHolding
    simp only
    cases (s.pen p).attempt <;> simp
  | track p => simp only [State.grantable, Waiting]; cases (s.tracker p).trackClaim <;> simp
  | position p =>
    simp only [State.grantable, Waiting]
    rw [Bool.and_eq_true, Bool.not_eq_true', positionQueued_eq_false_iff]
    cases (s.tracker p).positionClaim <;> simp
  | idleReturn => simp only [State.grantable, Waiting]; cases s.menu.claim <;> simp

theorem servedOrder_eq_grantOrder (s : State) : servedOrder s = s.grantOrder := by
  unfold State.grantOrder servedOrder
  cases s.notices.lastPen <;> simp [otherPen]

theorem servedNext_iff (s : State) (c : Claimant) : ServedNext s c ↔ s.nextGrant = some c := by
  unfold State.nextGrant ServedNext State.entryFree State.freeEntries Config.queueEntries Config.keptForFaults
  rw [servedOrder_eq_grantOrder]
  by_cases h : s.notices.queue.length < 30
  · rw [if_pos (by simp; omega), List.find?_eq_some_iff_append]
    simp only [h, true_and, waiting_iff, Bool.not_eq_true']
    simp
  · rw [if_neg (by simp; omega)]; simp [h]

/-! ### Queries -/

theorem buildReply_eq_replyOf (s : State) (subject : Nat) (h : subject < 16) (ch : BitVec 2) (ps : BitVec 10) :
    s.buildReply (queryArg subject ch ps) = replyOf s ps subject := by
  unfold State.buildReply
  rw [querySubject_queryArg, Nat.mod_eq_of_lt h]
  have hp : queryPenOf (queryArg subject ch ps) = if ps.getLsbD 0 = true then .b else .a := by
    unfold queryPenOf penOfBit
    rw [queryArg_bit0]
  have h10 : field ps 0 10 = ps.toNat := by unfold field; simp [BitVec.extractLsb']
  rcases subject with _ | _ | _ | _ | _ | _ | _ | _ | _ | _ | subject <;>
    simp only [replyOf, hp, querySegmentNumber, queryRegionNumber, queryPageNumber, queryItemPage, queryItemNumber,
      queryArg_field _ _ _ _ _ (show 0 + 10 ≤ 10 by omega), queryArg_field _ _ _ _ _ (show 0 + 6 ≤ 10 by omega),
      queryArg_field _ _ _ _ _ (show 0 + 5 ≤ 10 by omega), queryArg_field _ _ _ _ _ (show 4 + 5 ≤ 10 by omega),
      queryArg_field _ _ _ _ _ (show 0 + 4 ≤ 10 by omega), h10]
  · rfl
  · rfl
  · rfl
  · rfl
  · rfl
  · rfl
  · rfl
  · simp [State.channelStatus, List.countP_eq_length_filter]
  · rfl
  · rfl

/-- A QUERY that takes effect is answered. -/
theorem effectHeld_query (s : State) (subject : Nat) (h : subject < 16) (ch : BitVec 2) (ps : BitVec 10)
    (reply : Reply) (hr : replyOf s ps subject = some reply) :
    s.effectHeld (queryCtrl subject ch ps) = answered s subject ch reply := by
  have code : orderOfCode (ctrlCode (queryCtrl subject ch ps)) = some .query := by
    rw [queryCtrl_eq_ctrlWord subject h]
    exact orderOfCode_code .query 0 _
  unfold State.effectHeld
  rw [code, queryCtrl_eq_ctrlWord subject h, ctrlArg_ctrlWord]
  simp only [State.answerQuery]
  rw [buildReply_eq_replyOf s subject h, hr]
  simp only [State.afterReply, querySubject_queryArg, Nat.mod_eq_of_lt h, queryChannel_queryArg, State.enterNotice,
    onlyChannel_eq_channelSet, answered]
  split <;> rfl

/-! ### A freed entry -/

theorem freeing_eq_some_iff (s f : State) :
    s.freeing = some f ↔ ∃ n rest, LastWordDue s n rest ∧ f = freed s rest := by
  unfold State.freeing LastWordDue
  cases h : s.notices.queue with
  | nil => simp
  | cons n rest =>
    simp only
    split
    · rename_i hn
      constructor
      · intro hf; cases hf
      · rintro ⟨m, r, ⟨hq, hm⟩, -⟩
        cases hq
        omega
    · rename_i hn
      constructor
      · intro hf
        cases hf
        exact ⟨n, rest, ⟨rfl, by omega⟩, rfl⟩
      · rintro ⟨m, r, ⟨hq, -⟩, hf⟩
        cases hq
        rw [hf]
        rfl

theorem LastWordDue.acceptWord {s : State} {n : Notice} {rest : List Notice} (h : LastWordDue s n rest) :
    s.acceptWord = State.grantRound maxClaims (freed s rest) := by
  have hf : s.freeing = some (freed s rest) := (freeing_eq_some_iff _ _).2 ⟨n, rest, h, rfl⟩
  unfold State.acceptWord
  rw [hf]

theorem grantDue_iff (s : State) (c : Claimant) (f : State) :
    GrantDue s c f ↔ s.freeing = some f ∧ f.nextGrant = some c := by
  rw [freeing_eq_some_iff]
  constructor
  · rintro ⟨n, rest, h, hf, hc⟩
    exact ⟨⟨n, rest, h, hf⟩, (servedNext_iff _ _).1 hc⟩
  · rintro ⟨⟨n, rest, h, hf⟩, hc⟩
    exact ⟨n, rest, h, hf, (servedNext_iff _ _).2 hc⟩

/-- A grant command at its turn is the accept, whose first grant is that of the claim. -/
theorem GrantDue.grantAtFreeing {s f : State} {c : Claimant} (h : GrantDue s c f) :
    s.grantAtFreeing c = s.acceptWord ∧ s.acceptWord = State.grantRound 7 (f.grant c) := by
  obtain ⟨hf, hc⟩ := (grantDue_iff _ _ _).1 h
  unfold State.grantAtFreeing State.acceptWord
  simp only [hf, hc, if_true, true_and]
  show State.grantRound (7 + 1) f = _
  rw [State.grantRound, hc]

theorem grantAtFreeing_eq_self {s : State} {c : Claimant} (h : ∀ f, ¬ GrantDue s c f) : s.grantAtFreeing c = s := by
  unfold State.grantAtFreeing
  cases hf : s.freeing with
  | none => rfl
  | some f => exact if_neg fun hc => h f ((grantDue_iff _ _ _).2 ⟨hf, hc⟩)

/-- A round of grants that ends with no claim to serve is the grants that follow. -/
theorem grantsFollow_grantRound (n : Nat) (s : State) (h : (State.grantRound n s).nextGrant = none) :
    GrantsFollow s (State.grantRound n s) := by
  induction n generalizing s with
  | zero => exact ⟨[], rfl, fun c hc => by rw [servedNext_iff] at hc; rw [State.grantRound, hc] at h; cases h⟩
  | succ n ih =>
    unfold State.grantRound at h ⊢
    cases hc : s.nextGrant with
    | none =>
      exact ⟨[], rfl, fun c h' => by rw [servedNext_iff, hc] at h'; cases h'⟩
    | some c =>
      rw [hc] at h
      obtain ⟨cs, hcs⟩ := ih _ h
      exact ⟨c :: cs, (servedNext_iff _ _).2 hc, hcs⟩

/-! ### Images and items -/

theorem decodeImage_eq_imageOfWords (w : Word × Word) : decodeImage w.1 w.2 = imageOfWords w := by
  have h2 : field w.1 27 2 < 4 := (w.1.extractLsb' 27 2).isLt
  have h4 : field w.1 30 2 < 4 := (w.1.extractLsb' 30 2).isLt
  unfold decodeImage imageOfWords imageOfKind boundOfWord displayOfCode
  generalize field w.1 27 2 = d at *
  generalize field w.1 30 2 = k at *
  have hd : d = 0 ∨ d = 1 ∨ d = 2 ∨ d = 3 := by omega
  have hk : k = 0 ∨ k = 1 ∨ k = 2 ∨ k = 3 := by omega
  rcases hd with rfl | rfl | rfl | rfl <;> rcases hk with rfl | rfl | rfl | rfl <;>
    simp [Image.blank, Config.itemsPerPage]

theorem decodeImages_eq_some_iff (words : List (Word × Word)) (imgs : List Image) :
    decodeImages words = some imgs ↔ words.map imageOfWords = imgs.map some := by
  induction words generalizing imgs with
  | nil => cases imgs <;> simp [decodeImages]
  | cons w rest ih =>
    obtain ⟨w1, w2⟩ := w
    rw [decodeImages, List.map_cons, ← decodeImage_eq_imageOfWords]
    cases imgs with
    | nil => cases decodeImage w1 w2 <;> cases decodeImages rest <;> simp
    | cons i is =>
      have := ih is
      cases decodeImage w1 w2 <;> cases h : decodeImages rest <;> simp_all

theorem decodeItem_eq_itemOfWord (w : Word) : decodeItem w = itemOfWord w := by
  have h2 : field w 27 2 < 4 := (w.extractLsb' 27 2).isLt
  have h3 : field w 29 3 < 8 := (w.extractLsb' 29 3).isLt
  unfold decodeItem itemOfWord decodeAction afterOfCode
  generalize field w 27 2 = a at *
  generalize field w 29 3 = k at *
  have ha : a = 0 ∨ a = 1 ∨ a = 2 ∨ a = 3 := by omega
  have hk : k = 0 ∨ k = 1 ∨ k = 2 ∨ k = 3 ∨ k = 4 ∨ k = 5 ∨ k = 6 ∨ k = 7 := by omega
  rcases ha with rfl | rfl | rfl | rfl <;> rcases hk with rfl | rfl | rfl | rfl | rfl | rfl | rfl | rfl <;> rfl

theorem decodeItems_eq_some_iff (words : List Word) (items : List Item) :
    decodeItems words = some items ↔ words.map itemOfWord = items.map some := by
  induction words generalizing items with
  | nil => cases items <;> simp [decodeItems]
  | cons w rest ih =>
    rw [decodeItems, List.map_cons, ← decodeItem_eq_itemOfWord]
    cases items with
    | nil => cases decodeItem w <;> cases decodeItems rest <;> simp
    | cons i is =>
      have := ih is
      cases decodeItem w <;> cases h : decodeItems rest <;> simp_all

theorem decodeItems_eq_none_iff (words : List Word) :
    decodeItems words = none ↔ ∃ w ∈ words, itemOfWord w = none := by
  induction words with
  | nil => simp [decodeItems]
  | cons w rest ih =>
    rw [decodeItems, List.exists_mem_cons_iff, ← ih, ← decodeItem_eq_itemOfWord]
    cases decodeItem w <;> cases decodeItems rest <;> simp

/-! ### Strikes -/

theorem drawingKind_iff (e : Entry) : DrawingKind e ↔ e.kind.drawingKind = true := by
  unfold DrawingKind EntryKind.drawingKind
  cases e.kind <;> simp

/-- A strike that goes to an entry whose flag is clear is delivered with the flag set. -/
theorem Strikes.takeStrike {s hit : State} {p : Pen} {e : Entry} (h : Strikes s p e hit) :
    s.takeStrike p = hit.deliverStrike p e := by
  have skip : ∀ l : List Entry, (∀ x ∈ l, ¬ DrawingKind x) → ∀ m, strikeTarget (l ++ m) = strikeTarget m ∧
      strikeList p (l ++ m) = l ++ strikeList p m := by
    intro l hl m
    induction l with
    | nil => exact ⟨rfl, rfl⟩
    | cons x l ih =>
      have hx : x.kind.drawingKind = false := by
        have := hl x (List.mem_cons_self ..)
        rw [drawingKind_iff] at this
        simpa using this
      obtain ⟨h1, h2⟩ := ih fun y hy => hl y (List.mem_cons_of_mem _ hy)
      exact ⟨by simp [strikeTarget, hx, h1], by simp [strikeList, hx, h2]⟩
  obtain ⟨hs, ⟨before, after, hb, he, hf, rfl⟩ | ⟨hb, ha, rfl⟩⟩ := h
  · have hd := (drawingKind_iff e).1 he
    obtain ⟨h1, h2⟩ := skip before hb (e :: after)
    unfold State.takeStrike
    rw [hf, h1, h2]
    simp [strikeTarget, strikeList, hd, hs, Entry.withStruck]
  · obtain ⟨h1, -⟩ := skip s.beam.flight hb []
    rw [List.append_nil] at h1
    unfold State.takeStrike
    rw [h1]
    simp [strikeTarget, ha, hs, Entry.withStruck]

theorem renumberFrom_eq_mapIdx (n : Nat) (cs : List Candidate) :
    renumberFrom n cs = cs.mapIdx fun i c => { c with firstSeen := n + i } := by
  induction cs generalizing n with
  | nil => rfl
  | cons c cs ih =>
    rw [renumberFrom, ih, List.mapIdx_cons]
    simp [Nat.add_assoc, Nat.add_comm 1]

/-! ### CTRL words -/

theorem wordKind_eq_ctrl_iff (w : Word) : wordKind w = .ctrl ↔ field w 28 4 = 8 := by
  have h : field w 28 4 < 16 := (w.extractLsb' 28 4).isLt
  unfold wordKind
  generalize field w 28 4 = k at *
  interval_cases k <;> simp

theorem ctrlWord_fields {w : Word} (h : wordKind w = .ctrl) : ctrlWord (ctrlCode w) (ctrlCount w) (ctrlArg w) = w := by
  rw [wordKind_eq_ctrl_iff] at h
  have h8 : w.extractLsb' 28 4 = 8#4 := BitVec.eq_of_toNat_eq h
  unfold ctrlWord ctrlCode ctrlCount ctrlArg field
  rw [← h8, BitVec.ofNat_toNat, BitVec.ofNat_toNat, BitVec.setWidth_eq, BitVec.setWidth_eq]
  apply BitVec.eq_of_getLsbD_eq
  intro i hi
  simp only [BitVec.getLsbD_append, BitVec.getLsbD_extractLsb']
  split
  · rename_i h1; simp [h1]
  · split
    · rename_i h1 h2; simp [h2, show 16 + (i - 16) = i by omega]
    · split
      · rename_i h1 h2 h3; simp [h3, show 20 + (i - 16 - 4) = i by omega]
      · rename_i h1 h2 h3
        simp [show i - 16 - 4 - 8 < 4 by omega, show 28 + (i - 16 - 4 - 8) = i by omega]

/-! ### The last word of an order (R158, R159) -/

theorem orderOfCode_eq_some_iff (code : Nat) (o : OrderName) : orderOfCode code = some o ↔ o.code = code := by
  constructor
  · intro h
    have := List.find?_some h
    simpa using this
  · rintro rfl
    cases o <;> rfl

theorem countExpected_iff (code : Nat) (arg : Arg) (n : Nat) :
    CountExpected code arg n ↔ ∃ o, orderOfCode code = some o ∧ o.countRight arg n = true := by
  simp only [orderOfCode_eq_some_iff]
  constructor
  · intro h
    unfold CountExpected at h
    simp only [List.mem_cons, List.not_mem_nil, or_false] at h
    rcases h with ⟨rfl | rfl, h⟩ | ⟨rfl | rfl | rfl | rfl, rfl⟩ | ⟨rfl, rfl⟩ | ⟨rfl, rfl⟩ |
      ⟨rfl | rfl | rfl | rfl | rfl | rfl | rfl | rfl | rfl | rfl | rfl | rfl | rfl | rfl | rfl | rfl, rfl⟩
    · exact ⟨.segLoad, rfl, by rcases h with rfl | rfl | rfl | rfl | rfl | rfl | rfl <;> rfl⟩
    · exact ⟨.segLoadNow, rfl, by rcases h with rfl | rfl | rfl | rfl | rfl | rfl | rfl <;> rfl⟩
    · exact ⟨.segShow, rfl, rfl⟩
    · exact ⟨.regionLoad, rfl, rfl⟩
    · exact ⟨.penMode, rfl, rfl⟩
    · exact ⟨.trackSet, rfl, rfl⟩
    · exact ⟨.penFence, rfl, rfl⟩
    · exact ⟨.pageLoad, rfl, by simp [OrderName.countRight, pageLoadValid, pageLoadCount]⟩
    · exact ⟨.segCursor, rfl, rfl⟩
    · exact ⟨.menuRoot, rfl, rfl⟩
    · exact ⟨.menuClose, rfl, rfl⟩
    · exact ⟨.menuUnlock, rfl, rfl⟩
    · exact ⟨.menuIdle, rfl, rfl⟩
    · exact ⟨.forceItem, rfl, rfl⟩
    · exact ⟨.penClearExclusions, rfl, rfl⟩
    · exact ⟨.trackOff, rfl, rfl⟩
    · exact ⟨.blinkRate, rfl, rfl⟩
    · exact ⟨.channelPresent, rfl, rfl⟩
    · exact ⟨.channelLevel, rfl, rfl⟩
    · exact ⟨.routeMode, rfl, rfl⟩
    · exact ⟨.keepTables, rfl, rfl⟩
    · exact ⟨.resetPart, rfl, rfl⟩
    · exact ⟨.frameTimeout, rfl, rfl⟩
    · exact ⟨.query, rfl, rfl⟩
  · rintro ⟨o, rfl, h⟩
    unfold CountExpected
    cases o <;> simp_all [OrderName.code, OrderName.countRight, pageLoadValid, pageLoadCount]
    all_goals omega

/-- The last word of an order makes the Decoder take it. -/
theorem LastWordOf.arrive {s t : State} {w ctrl : Word} {data : List Word} (h : LastWordOf s w ctrl data t) :
    s.arrive w = t.takeOrder ctrl data := by
  obtain ⟨hh, hk, ⟨hi, hc, rfl, rfl, rfl⟩ | ⟨got, hd, hn, rfl, rfl⟩⟩ := h
  · have hr : State.upstreamReady t = true := by simp [State.upstreamReady, hh, hi, DecoderState.isHeld]
    unfold State.arrive State.takeWord State.takeCtrl
    simp only [hr, if_true, hi, hk, hc]
  · have hr : s.upstreamReady = true := by simp [State.upstreamReady, hh, hd, DecoderState.isHeld]
    unfold State.arrive State.takeData
    simp only [hr, if_true, hd, List.length_append, List.length_cons, List.length_nil]
    rw [if_neg (by omega)]

theorem LastWordOf.data_length {s t : State} {w ctrl : Word} {data : List Word} (h : LastWordOf s w ctrl data t) :
    data.length = ctrlCount ctrl := by
  obtain ⟨-, -, ⟨-, hc, rfl, rfl, -⟩ | ⟨got, -, hn, rfl, -⟩⟩ := h
  · simp [hc]
  · simp [hn]

theorem LastWordOf.listens {s t : State} {w ctrl : Word} {data : List Word} (h : LastWordOf s w ctrl data t) :
    Listens t := by
  obtain ⟨hh, -, ⟨hi, -, -, -, rfl⟩ | ⟨got, -, -, -, rfl⟩⟩ := h
  · exact ⟨hh, hi⟩
  · exact ⟨hh, rfl⟩

/-- An order's own command in IDLE is the arrival of its last word. -/
theorem LastWordOf.arriveOrder {s t : State} {w ctrl : Word} {data : List Word} (h : LastWordOf s w ctrl data t)
    {o : OrderName} (ho : o.code = ctrlCode ctrl) : t.arriveOrder o (ctrlArg ctrl) data = s.arrive w := by
  have hl := h.data_length
  have hn : ctrlCount ctrl < 16 := (ctrl.extractLsb' 16 4).isLt
  rw [h.arrive, State.arriveOrder_taken t h.listens.upstreamReady h.listens.2 o _ _ (by omega), ho, hl,
    ctrlWord_fields h.2.1]

theorem imageWords_imagePairs (data : List Word) (h : data.length % 2 = 0) : imageWords (imagePairs data) = data := by
  match data with
  | [] => rfl
  | [_] => simp at h
  | w1 :: w2 :: rest =>
    rw [imagePairs, imageWords, imageWords_imagePairs rest (by simp only [List.length_cons] at h; omega)]

theorem queryArg_fields (arg : Arg) :
    queryArg (field arg 12 4) (arg.extractLsb' 10 2) (arg.extractLsb' 0 10) = arg := by
  unfold queryArg field
  rw [BitVec.ofNat_toNat, BitVec.setWidth_eq]
  apply BitVec.eq_of_getLsbD_eq
  intro i hi
  simp only [BitVec.getLsbD_append, BitVec.getLsbD_extractLsb']
  split
  · rename_i h1; simp [h1]
  · split
    · rename_i h1 h2; simp [h2, show 10 + (i - 10) = i by omega]
    · rename_i h1 h2
      simp [show i - 10 - 2 < 4 by omega, show 12 + (i - 10 - 2) = i by omega]

/-! ### What the blocks do -/

theorem addExclusion_eq_withExclusion (keys : List Key) (key : Key) : addExclusion keys key = withExclusion keys key := by
  unfold addExclusion withExclusion Config.exclusionKeys
  simp only [List.contains_iff_mem]
  split
  · rfl
  · split <;> rfl

theorem endMiss_eq_afterMiss (s : State) (p : Pen) (reason : MissReason) (next : AttemptState) :
    s.endMiss p reason next = afterMiss s p (s.pen p) reason next := by
  unfold State.endMiss State.offerNotice State.defaultRoute afterMiss
  simp only [onlyChannel_eq_channelSet]
  split <;> rfl

theorem notifyUnlocked_eq_afterUnlock (s : State) (p : Pen) : s.notifyUnlocked p = afterUnlock s p := by
  unfold State.notifyUnlocked afterUnlock
  split <;> simp [*, endMiss_eq_afterMiss]

theorem trackRequest_eq_afterTrackRequest (s : State) (p : Pen) (c : TrackClaim) :
    s.trackRequest p c = afterTrackRequest s p c := by
  unfold State.trackRequest afterTrackRequest State.defaultRoute
  simp only [onlyChannel_eq_channelSet, Bool.and_eq_true, Option.isNone_iff_eq_none]
  split <;> rfl

theorem penTipUp_eq_afterTipUp (s : State) (p : Pen) : s.penTipUp p = afterTipUp s p := by
  have miss : ∀ reason next, (s.setPen p { s.pen p with tip := .up }).endMiss p reason next =
      afterMiss s p { s.pen p with tip := .up } reason next := by
    intro reason next
    rw [endMiss_eq_afterMiss]
    have room : (s.setPen p { s.pen p with tip := .up }).hasRoom = s.hasRoom := by
      cases p <;> rfl
    unfold afterMiss
    rw [room]
    simp [State.setPen, State.pen, State.regionTest]
  unfold State.penTipUp afterTipUp State.settledTipUp
  simp only [miss]
  cases h : (s.pen p).attempt <;> simp only
  · rfl
  · rfl
  · rfl
  · rfl
  · rw [State.pen_setPen]
    cases hm : (s.pen p).record.mode <;> simp [State.setPen]

end Sys2Proof.Stated
end

