-- ==== Sys2Proof/WellFormed.lean ====
section
/-! DEFINITION. Which commands are well formed: a control order carries the data words that R159 gives it,
and an order of blocks names no block twice. A command that is not well formed is not refused by the
machine: its words arrive as they are, and R159 gives them BAD CONTROL. -/

namespace Sys2Proof

/-- R159: a SEG LOAD or SEG LOAD NOW carries 1 to 7 images. -/
def imagesWellFormed (images : List (Word × Word)) : Bool :=
  decide (1 ≤ images.length) && decide (images.length ≤ 7)

/-- R159: PAGE LOAD carries as many data words as the item count when bit 10 (valid) is 1, and none
when it is 0. -/
def itemsWellFormed (arg : Arg) (items : List Word) : Bool :=
  if arg.getLsbD 10 then items.length == (arg.extractLsb' 0 4).toNat else items.isEmpty

/-- An order of blocks names each block at most once. -/
def orderWellFormed {α : Type} [DecidableEq α] (order : List α) : Bool :=
  decide order.Nodup

/-- R171: at an expiry each pen stands for its engine and then its tracker, so it is named at most twice. -/
def expiryWellFormed (order : List Pen) : Bool :=
  decide (order.count .a ≤ 2) && decide (order.count .b ≤ 2)

def Instr.wellFormed : Instr → Bool
  | .segLoad _ images => imagesWellFormed images
  | .segLoadNow _ images => imagesWellFormed images
  | .pageLoad arg items => itemsWellFormed arg items
  | .frame order => orderWellFormed order
  | .retire order => orderWellFormed order
  | .internalReset order => orderWellFormed order
  | .frameTimerExpiry order => expiryWellFormed order
  | .powerOn | .linkReset | .wordArrival _ | .move | .line | .dot | .step | .glyph | .seg | .pass
  | .reservedOrder | .crossDot | .strike _ | .tipDown _ | .tipUp _ | .noticeAccept | .penGrant _
  | .decoderGrant | .trackClaimGrant _ | .positionClaimGrant _ | .idleReturnGrant
  | .segCursor _ | .segShow _ _ | .regionLoad _ _ | .menuRoot _ | .menuClose _ | .menuUnlock _
  | .menuIdle _ | .forceItem _ | .penMode _ _ | .penFence _ _ _ | .penClearExclusions _
  | .trackSet _ _ | .trackOff _ | .blinkRate _ | .channelPresent _ | .channelLevel _ | .routeMode _
  | .keepTables _ | .resetPart _ | .frameTimeout _
  | .querySegment _ _ | .queryRegion _ _ | .queryPage _ _ | .queryItem _ _ | .queryStack _ _
  | .queryPen _ _ | .queryTrack _ _ | .queryChannels _ _ | .queryFaults _ _ | .queryPart _ _ => true

end Sys2Proof
end

