-- ==== Sys2Proof/Tests/Slice0.lean ====
section
/-! SUPPORT. Small tests: what the well-formedness check refuses, one step of each command on a small state, and
for each statement with hypotheses a concrete state and operands that meet them. -/

set_option linter.unusedSimpArgs false

namespace Sys2Proof.Test

open Sys2Proof.Machine Sys2Proof.Stated

/-! ### Well-formedness -/

theorem test_wf_load_of_no_image : (Instr.segLoad 0 []).wellFormed = false := by decide
theorem test_wf_load_of_eight_images : (Instr.segLoadNow 0 (List.replicate 8 (0, 0))).wellFormed = false := by decide
theorem test_wf_load_of_seven_images : (Instr.segLoad 0 (List.replicate 7 (0, 0))).wellFormed = true := by decide
theorem test_wf_page_of_wrong_count : (Instr.pageLoad 0x0402#16 [0]).wellFormed = false := by decide
theorem test_wf_invalid_page_with_items : (Instr.pageLoad 0x0001#16 [0]).wellFormed = false := by decide
theorem test_wf_page_of_its_count : (Instr.pageLoad 0x0402#16 [0, 0]).wellFormed = true := by decide
theorem test_wf_retire_names_a_block_twice : (Instr.retire [.tracker .a, .tracker .a]).wellFormed = false := by decide
theorem test_wf_frame_names_a_block_twice : (Instr.frame [.menuUnit, .menuUnit]).wellFormed = false := by decide
theorem test_wf_internal_reset_names_a_block_twice :
    (Instr.internalReset [.penEngine .b, .penEngine .b]).wellFormed = false := by decide
theorem test_wf_expiry_names_a_pen_thrice : (Instr.frameTimerExpiry [.a, .b, .a, .a]).wellFormed = false := by decide
theorem test_wf_expiry_names_each_pen_twice : (Instr.frameTimerExpiry [.a, .b, .a, .b]).wellFormed = true := by decide

/-! ### Small states -/

/-- The state after a command that ends in a next state. -/
def after (c : Instr) (s : State) : State :=
  match exec c s with
  | .next t => t
  | .fault _ => s
  | .refused _ => s

/-- A word with the kind code given. -/
def word (kind rest : Nat) : Word := BitVec.ofNat 32 (kind * 2 ^ 28 + rest)

def held (w : Word) : State := { State.reset with link := { held := some w, downstream := none } }

/-- A drawing entry of element `n` of segment 14, and the FRAME entry. -/
def drawn (n : Nat) : Entry :=
  { origin := .stream, kind := .line, key := ⟨14, .ordinal n⟩, endPt := ⟨1240, 2900⟩, mask := ⟨true, true⟩
    struck := ⟨false, false⟩ }
def ofKind (kind : EntryKind) : Entry := darkEntry kind ⟨0, .ordinal 0⟩ ⟨0, 0⟩

def flying (flight : List Entry) : State := { State.reset with beam := { State.reset.beam with flight := flight } }

def engine (mode : Mode) (attempt : AttemptState) : PenEngine :=
  { PenEngine.reset with record := { ModeRecord.reset with mode := mode }, attempt := attempt }
def tipped (mode : Mode) (attempt : AttemptState) : PenEngine := { engine mode attempt with tip := .down }
def tracking (state : TrackState) : Tracker := { Tracker.reset with state := state }

def penA (e : PenEngine) (s : State) : State := s.setPen .a e
def trackA (t : Tracker) (s : State) : State := s.setTracker .a t
def testA (phase : TestPhase) (s : State) : State := s.setRegionTest .a { RegionTest.reset with phase := phase }

/-- Segment 14 with the image given, and segment 14 as a drawing that can be picked. -/
def withImage (img : Image) (s : State) : State := { s with segments := [(14, { current := img, staged := none })] }
def picture : Image :=
  { kind := .drawing false none, detectable := true, display := .normal, cls := 3, priority := 1, grain := .element
    route := 0 }
def button : Image := { picture with kind := .menu 1 0 }

def missNotice : Notice := { body := .miss .span 1 1 false, channel := 0, pen := some .a, rerouted := false, accepted := 0 }
def positionNotice : Notice := { missNotice with body := .position ⟨⟨1, 2⟩, .host, false⟩ }
def queued (n : Nat) (s : State) : State := { s with notices := { s.notices with queue := List.replicate n missNotice } }
def queuedPosition (s : State) : State := { s with notices := { s.notices with queue := [positionNotice] } }

def waitsFor (state : DecoderState) : State := { State.reset with decoder := { State.reset.decoder with state := state } }
def runs (ms setting : Nat) : State :=
  { State.reset with supervisor := { State.reset.supervisor with timer := .running ms, setting := setting } }

/-- Page 1 with one COMMAND item, on the stack alone. -/
def shown (s : State) : State :=
  { s with menu := { s.menu with stack := [1], pages := [(1, { valid := true, items := [⟨.command 7 .stay, false, 2⟩] })] } }

def won : HeldOutcome := .winner ⟨14, .ordinal 1⟩ ⟨1240, 2900⟩ false

/-- The next accept frees an entry, and pen A's POSITION claim waits behind a POSITION notice of pen A. -/
def passedOver : State :=
  let s := trackA { Tracker.reset with positionClaim := some ⟨⟨1, 2⟩, .host, true⟩ } State.reset
  { s with notices := { s.notices with queue := [missNotice, positionNotice] } }

/-! ### One step of each command -/

theorem test_powerOn : exec .powerOn (held 0) = .next State.reset := rfl
theorem test_linkReset : exec .linkReset (penA (tipped .press .gathering) State.reset) =
    .next (penA { PenEngine.reset with tip := .down, lastOutcome := .reset } State.reset) := rfl
theorem test_wordArrival : exec (.wordArrival (word 7 0)) State.reset = .next (held (word 7 0)) := rfl
theorem test_move : (after .move (held (word 0 (1200 * 4096 + 300)))).beam =
    { State.reset.beam with position := ⟨1200, 300⟩, flight := [darkEntry .move ⟨0, .ordinal 0⟩ ⟨1200, 300⟩] } := by decide
theorem test_line : (after .line (held (word 1 (5 * 2 ^ 24 + 1200 * 4096 + 1700)))).beam.position = ⟨1200, 1700⟩ := by decide
theorem test_dot : (after .dot (held (word 3 (7 * 2 ^ 24 + 10 * 4096 + 20)))).link =
    { held := none, downstream := some (word 3 (7 * 2 ^ 24 + 10 * 4096 + 20)) } := by decide
theorem test_step_clamps_at_zero : (after .step (held (word 2 (2 ^ 27 + 2047 * 2 ^ 11 + 5)))).beam.position = ⟨0, 5⟩ := by decide
theorem test_glyph : (after .glyph (held (word 4 (3 * 2 ^ 24 + 2 * 256)))).beam.position = ⟨24, 0⟩ := by decide
theorem test_seg : (after .seg (held (word 5 14))).beam.segment = 14 := by decide
theorem test_frame : (after (.frame []) (held (word 6 7))).rewrite.counter = 1 := by decide
theorem test_pass : (after .pass (held (word 7 0))).beam.flight = [ofKind .pass] := by decide
theorem test_reservedOrder : (after .reservedOrder (held (word 9 0))).supervisor.first = some (.badOrder, word 9 0) := by decide
theorem test_crossDot :
    (after .crossDot { State.reset with injection := [⟨.a, .e, 1, ⟨2056, 2048⟩⟩] }).link.downstream =
      some (word 3 (7 * 2 ^ 24 + 2056 * 4096 + 2048)) := by decide
theorem test_retire : (after (.retire []) (flying [drawn 0, drawn 1])).beam.afterglow = some (drawn 0) := by decide
theorem test_retire_spurious : (after (.retire []) State.reset).supervisor.first = some (.spuriousRetire, 0) := by decide
theorem test_strike : (after (.strike .a) (penA (engine .press .gathering) (withImage picture (flying [drawn 1])))).pens.a.candidates =
    [{ key := ⟨14, .ordinal 1⟩, kind := .drawing, history := 0, struck := true, firstSeen := 0, strike := ⟨1240, 2900⟩ }] := by
  decide
theorem test_tipDown : exec (.tipDown .a) (penA (engine .press .ready) State.reset) =
    .next (penA (tipped .press .gathering) State.reset) := rfl
theorem test_tipUp : exec (.tipUp .a) (penA (tipped .press (.settled none false)) State.reset) =
    .next (penA (engine .press .ready) State.reset) := rfl
theorem test_tipUp_ends_a_drag :
    let e := tipped .region .regionWait
    let s := trackA { tracking .seeking with origin := .drag } (penA { e with record := { e.record with dragEnds := true } } State.reset)
    (after (.tipUp .a) s).notices.queue.map Notice.body =
      [.miss .released 0 0 false, .position ⟨⟨2048, 2048⟩, .drag, true⟩] := by decide
theorem test_noticeAccept : exec .noticeAccept (queued 1 State.reset) = .next State.reset := rfl
theorem test_penGrant : let s := queued 1 (withImage picture (penA (engine .press (.holding won)) State.reset))
    exec (.penGrant .a) s = exec .noticeAccept s ∧ (after (.penGrant .a) s).notices.queue =
      [{ body := .pick ⟨14, .ordinal 1⟩ 3 ⟨1240, 2900⟩ false false false, channel := 0, pen := some .a, rerouted := false
         accepted := 0 }] := ⟨rfl, by decide⟩
theorem test_decoderGrant : (after .decoderGrant (queued 1 (waitsFor (.held (queryCtrl 9 0 0))))).notices.queue.map Notice.body =
    [.reply (.part 1 false false)] := by decide
theorem test_decoderGrant_without_freed_entry : let s := waitsFor (.held (queryCtrl 9 0 0))
    exec .decoderGrant s = .next s := rfl
theorem test_trackClaimGrant :
    (after (.trackClaimGrant .a)
      (queued 1 (trackA { Tracker.reset with trackClaim := some ⟨.lost, ⟨1, 2⟩, .host⟩ } State.reset))).trackers =
      State.reset.trackers := by decide
theorem test_positionClaimGrant_is_passed_over : exec (.positionClaimGrant .a) passedOver = .next passedOver := rfl
theorem test_idleReturnGrant :
    (after .idleReturnGrant (queued 1 { State.reset with menu := { MenuUnit.reset with claim := some ⟨.b, 1, 2, 3⟩ } })).notices.queue.map
      Notice.body = [.idleReturn 1 2 3] := by decide
theorem test_frameTimerExpiry : (after (.frameTimerExpiry [.b]) (runs 1 4)).supervisor.timer = .stalled := by decide
theorem test_internalReset : exec (.internalReset []) (waitsFor .drain) = .next State.reset := rfl
theorem test_segCursor : (after (.segCursor 1023#16) State.reset).decoder.cursor = 1023 := by decide
theorem test_segCursor_refused : (after (.segCursor 0#16) State.reset).supervisor.sticky = 4#6 := by decide
theorem test_segLoad : (after (.segLoad 0 [(0x60000000#32, 0#32)]) State.reset).segments =
    [(1, { current := Image.blank, staged := some { picture with cls := 0, priority := 0, grain := .segment } })] := by decide
theorem test_segLoadNow : (after (.segLoadNow 0 [(0x80000000#32, 0x1B#32)]) State.reset).segments =
    [(1, { current := { Image.blank with kind := .menu 1 11, grain := .segment }, staged := none })] := by decide
theorem test_segShow : (after (.segShow 1#16 0x000E000E#32) (withImage picture State.reset)).segments =
    [(14, { current := { picture with display := .highlight }, staged := none })] := by decide
theorem test_regionLoad : (after (.regionLoad 63#16 0x3F5#32) State.reset).regions.records =
    [(63, { enabled := true, rule := .nonzero, priority := 15, route := 5#4 })] := by decide
theorem test_pageLoad : (after (.pageLoad 0x0C01#16 [0x42000007#32]) State.reset).menu.pages = (shown State.reset).menu.pages := by
  decide
theorem test_menuRoot : (after (.menuRoot 31#16) State.reset).menu.stack = [31] := by decide
theorem test_menuClose : (after (.menuClose 0) (shown State.reset)).menu.stack = [] := by decide
theorem test_menuUnlock :
    exec (.menuUnlock 0) { State.reset with menu := { MenuUnit.reset with owner := some .b, idleCounter := 9 } } =
      .next State.reset := rfl
theorem test_menuIdle : (after (.menuIdle 255#16) State.reset).menu.idleLimit = 255 := by decide
theorem test_forceItem : (after (.forceItem 0x10#16) (shown State.reset)).notices.queue.map Notice.body =
    [.menu 1 0 .command 7 1 1 false false true] := by decide
theorem test_penMode : (after (.penMode 0x9000#16 0xFFFF3214#32) State.reset).pens.b = engine .press .ready := by decide
theorem test_penMode_refused : (after (.penMode 0x1000#16 0xFFFF9214#32) State.reset).supervisor.sticky = 4#6 := by decide
theorem test_penFence : (after (.penFence 1#16 0x00640FFF#32 0#32) State.reset).pens.a.record.fence = .fixed 100 4095 0 0 := by
  decide
theorem test_penClearExclusions :
    exec (.penClearExclusions 0#16) (penA { PenEngine.reset with exclusions := [⟨1, .whole⟩] } State.reset) = .next State.reset := rfl
theorem test_trackSet : (after (.trackSet 0x0804#16 0x00640FFF#32) (penA (engine .press .ready) State.reset)).trackers.a =
    { Tracker.reset with state := .seeking, position := ⟨100, 4095⟩, settle := true, stale := true, lastReported := ⟨100, 4095⟩ } := by
  decide
theorem test_trackOff : (after (.trackOff 0#16) (trackA (tracking .locked) State.reset)).trackers.a.state = .off := by decide
theorem test_blinkRate : (after (.blinkRate 15#16) State.reset).rewrite.halfPeriod = 15 := by decide
theorem test_channelPresent : (after (.channelPresent 6#16) State.reset).notices.present = 7#4 := by decide
theorem test_channelLevel : (after (.channelLevel 0x25#16) State.reset).notices.levels = [(2, 5)] := by decide
theorem test_routeMode : (after (.routeMode 2#16) State.reset).notices.tieFirst = true := by decide
theorem test_keepTables : (after (.keepTables 1#16) State.reset).decoder.keep = true := by decide
theorem test_resetPart : (after (.resetPart 0) (flying [drawn 0])).decoder.state = .drain := by decide
theorem test_frameTimeout : (after (.frameTimeout 3#16) State.reset).supervisor.timer = .running 30 := by decide
theorem test_querySegment : (after (.querySegment 0 14) (withImage picture State.reset)).notices.queue.map Notice.body =
    [.reply (.segment 14 picture none)] := by decide
theorem test_querySegment_refused : (after (.querySegment 0 0) State.reset).supervisor.sticky = 4#6 := by decide
theorem test_queryRegion : (after (.queryRegion 0 63) State.reset).notices.queue.map Notice.body =
    [.reply (.region 63 RegionRecord.blank ⟨⟨.idle, 0, false⟩, ⟨.idle, 0, false⟩⟩)] := by decide
theorem test_queryPage : (after (.queryPage 0 1) (shown State.reset)).notices.queue.map Notice.body =
    [.reply (.page 1 true [⟨.command 7 .stay, false, 2⟩])] := by decide
theorem test_queryItem : (after (.queryItem 0 0x10) (shown State.reset)).notices.queue.map Notice.body =
    [.reply (.item 1 0 (some ⟨.command 7 .stay, false, 2⟩))] := by decide
theorem test_queryStack : (after (.queryStack 0 0) (shown State.reset)).notices.queue.map Notice.body =
    [.reply (.stack [1] none 0 0 false)] := by decide
theorem test_queryPen : (after (.queryPen 0 1) State.reset).notices.queue.map Notice.body =
    [.reply (.pen .b PenEngine.reset.status)] := by decide
theorem test_queryTrack : (after (.queryTrack 0 0) State.reset).notices.queue.map Notice.body =
    [.reply (.track .a Tracker.reset.status)] := by decide
theorem test_queryChannels : (after (.queryChannels 0 0) State.reset).notices.lru = [1, 2, 3, 0] := by decide
theorem test_queryFaults :
    (after (.queryFaults 0 0) { State.reset with supervisor := { Supervisor.reset with sticky := 4, first := some (.badValue, 0) } }).supervisor =
      Supervisor.reset := by decide
theorem test_queryPart : (after (.queryPart 2 0) State.reset).notices.queue.map Notice.channel = [0] := by decide

/-- R180 to R182: the header and the payload of a PICK, written out from the tables of bits. -/
theorem test_words_of_a_pick :
    ({ missNotice with body := .pick ⟨14, .ordinal 1⟩ 3 ⟨1240, 2900⟩ false false false } : Notice).words =
      [0x00800C0E#32, 0x00000001#32, 0x04D80B54#32] := by decide

/-! ### Witnesses: arrivals, passages and the frame passage

Each theorem gives a state and operands that meet the hypotheses of one clause together. -/

theorem listens_reset : Listens State.reset := ⟨rfl, rfl⟩

theorem witness_StepRunsTheFrontCommand :
    ({ State.reset with pending := [.noticeAccept, .move] }).pending = .noticeAccept :: [.move] := rfl
theorem witness_EmptyQueue_off : State.reset.pending = [] ∧ State.reset.supervisor.timer = .off := ⟨rfl, rfl⟩
theorem witness_EmptyQueue_runs_on : (runs 2 1).pending = [] ∧ (runs 2 1).supervisor.timer = .running 2 ∧ 2 ≤ 2 := by decide
theorem witness_EmptyQueue_expires : (runs 1 1).pending = [] ∧ (runs 1 1).supervisor.timer = .running 1 ∧ 1 ≤ 1 := by decide
theorem witness_LinkReset_keeps : Table.wf SegEntry.blank (withImage picture State.reset).segments = true ∧
    ({ withImage picture State.reset with decoder := { ControlDecoder.reset with keep := true } }).decoder.keep = true := by decide
theorem witness_LinkReset_clears : Table.wf SegEntry.blank (withImage picture State.reset).segments = true ∧
    (withImage picture State.reset).decoder.keep = false := by decide

theorem witness_ResetPart_at_once : Listens State.reset ∧ State.reset.beam.flight = [] := ⟨⟨rfl, rfl⟩, rfl⟩
theorem witness_ResetPart_drains : Listens (flying [drawn 0]) ∧ (flying [drawn 0]).beam.flight ≠ [] :=
  ⟨⟨rfl, rfl⟩, by decide⟩
theorem witness_InternalReset_empty : (waitsFor .drain).decoder.state = .drain ∧ (waitsFor .drain).beam.flight = [] := ⟨rfl, rfl⟩
theorem witness_InternalReset_last :
    let s := { flying [ofKind .frame] with decoder := { ControlDecoder.reset with state := .drain } }
    s.decoder.state = .drain ∧ s.beam.flight = [ofKind .frame] := ⟨rfl, rfl⟩

theorem witness_WordArrival_held : Listens State.reset ∧ wordKind (word 15 0) ≠ .ctrl ∧ wordKind (word 15 0) ≠ .frame :=
  ⟨⟨rfl, rfl⟩, by decide, by decide⟩
theorem witness_WordArrival_kept : (held 0).link.held ≠ none ∧ (waitsFor .drain).decoder.state = .drain ∧
    (waitsFor (.held (queryCtrl 9 0 0))).decoder.state = .held (queryCtrl 9 0 0) := by decide
theorem witness_WordArrival_collected : (waitsFor (.collecting 0x80320000#32 [])).link.held = none ∧
    (waitsFor (.collecting 0x80320000#32 [])).decoder.state = .collecting 0x80320000#32 [] ∧
    ([] : List Word).length + 1 < ctrlCount 0x80320000#32 := by decide
theorem witness_WordArrival_collects : Listens State.reset ∧ wordKind 0x8031000F#32 = .ctrl ∧ ctrlCount 0x8031000F#32 ≠ 0 ∧
    ctrlCount 0x803F0000#32 = 15 := ⟨⟨rfl, rfl⟩, by decide, by decide, by decide⟩

/-- One word of a collection of two is in. -/
def collecting (ctrl : Word) : State := waitsFor (.collecting ctrl [7])

theorem lastWordOf_ctrl (w : Word) (hk : wordKind w = .ctrl) (hc : ctrlCount w = 0) :
    LastWordOf State.reset w w [] State.reset := ⟨rfl, hk, Or.inl ⟨rfl, hc, rfl, rfl, rfl⟩⟩
theorem lastWordOf_data (ctrl w : Word) (hk : wordKind ctrl = .ctrl) (hc : ctrlCount ctrl = 2) :
    LastWordOf (collecting ctrl) w ctrl [7, w] State.reset :=
  ⟨rfl, hk, Or.inr ⟨[7], rfl, hc.symm, rfl, rfl⟩⟩

theorem witness_LastWord_unknown_code : LastWordOf State.reset 0x80000000#32 0x80000000#32 [] State.reset ∧
    ¬ CountExpected (ctrlCode 0x80000000#32) (ctrlArg 0x80000000#32) 0 :=
  ⟨lastWordOf_ctrl _ (by decide) (by decide), by unfold CountExpected; decide⟩
theorem witness_LastWord_unknown_code_with_data : LastWordOf (collecting 0x80020000#32) 0 0x80020000#32 [7, 0] State.reset ∧
    ¬ CountExpected (ctrlCode 0x80020000#32) (ctrlArg 0x80020000#32) 2 :=
  ⟨lastWordOf_data _ _ (by decide) (by decide), by unfold CountExpected; decide⟩
theorem witness_LastWord_missing_data : LastWordOf State.reset 0x83000000#32 0x83000000#32 [] State.reset ∧
    ¬ CountExpected (ctrlCode 0x83000000#32) (ctrlArg 0x83000000#32) 0 :=
  ⟨lastWordOf_ctrl _ (by decide) (by decide), by unfold CountExpected; decide⟩
theorem witness_LastWord_data_where_none_is_due :
    LastWordOf (collecting 0x80120001#32) 0 0x80120001#32 [7, 0] State.reset ∧
      ¬ CountExpected (ctrlCode 0x80120001#32) (ctrlArg 0x80120001#32) 2 :=
  ⟨lastWordOf_data _ _ (by decide) (by decide), by unfold CountExpected; decide⟩
theorem witness_LastWord_wrong_item_count : LastWordOf State.reset 0x82000401#32 0x82000401#32 [] State.reset ∧
    ¬ CountExpected (ctrlCode 0x82000401#32) (ctrlArg 0x82000401#32) 0 :=
  ⟨lastWordOf_ctrl _ (by decide) (by decide), by unfold CountExpected; decide⟩
theorem witness_LastWord_unknown_subject : LastWordOf State.reset 0x87F0A000#32 0x87F0A000#32 [] State.reset ∧
    ctrlCode 0x87F0A000#32 = 0x7F ∧ 10 ≤ field (ctrlArg 0x87F0A000#32) 12 4 :=
  ⟨lastWordOf_ctrl _ (by decide) (by decide), by decide, by decide⟩
theorem witness_LastWord_acts : LastWordOf State.reset 0x87F09000#32 0x87F09000#32 [] State.reset ∧
    CountExpected (ctrlCode 0x87F09000#32) (ctrlArg 0x87F09000#32) 0 ∧
    (ctrlCode 0x87F09000#32 = 0x7F → field (ctrlArg 0x87F09000#32) 12 4 < 10) :=
  ⟨lastWordOf_ctrl _ (by decide) (by decide), by unfold CountExpected; decide, by decide⟩
theorem witness_LastWord_of_data_acts : LastWordOf (collecting 0x83120000#32) 0 0x83120000#32 [7, 0] State.reset ∧
    CountExpected (ctrlCode 0x83120000#32) (ctrlArg 0x83120000#32) 2 ∧ ctrlCode 0x83120000#32 ≠ 0x7F :=
  ⟨lastWordOf_data _ _ (by decide) (by decide), by unfold CountExpected; decide, by decide⟩
theorem witness_FrameArrival : Listens (trackA (tracking .locked) State.reset) ∧ wordKind (word 6 7) = .frame ∧
    ∀ p, ((trackA (tracking .locked) State.reset).tracker p).position.Law :=
  ⟨⟨rfl, rfl⟩, by decide, by intro p; cases p <;> exact ⟨by decide, by decide⟩⟩

theorem witness_Waits (w : Word) (k : WordKind) (h : wordKind w = k) : Waits (held w) k w := ⟨rfl, h, Nat.succ_pos 7⟩
theorem witness_Undrawn_move : Waits (held (word 0 0)) .move (word 0 0) := witness_Waits _ _ (by decide)
theorem witness_Undrawn_seg : Waits (held (word 5 1023)) .seg (word 5 1023) := witness_Waits _ _ (by decide)
theorem witness_Undrawn_pass : Waits (held (word 7 0)) .pass (word 7 0) := witness_Waits _ _ (by decide)
theorem witness_Undrawn_reserved_lowest : Waits (held (word 9 0)) .reserved (word 9 0) := witness_Waits _ _ (by decide)
theorem witness_Undrawn_reserved_highest : Waits (held (word 15 0)) .reserved (word 15 0) := witness_Waits _ _ (by decide)
theorem witness_Undrawn_crossDot :
    let s := { flying (List.replicate 7 (drawn 0)) with injection := [⟨.a, .e, 1, ⟨2056, 2048⟩⟩] }
    s.injection = ⟨.a, .e, 1, ⟨2056, 2048⟩⟩ :: [] ∧ s.beam.flight.length < 8 := by decide
theorem witness_Undrawn_full : 8 ≤ (flying (List.replicate 8 (drawn 0))).beam.flight.length := by decide
theorem witness_Undrawn_injecting : ({ held (word 6 0) with injection := [⟨.a, .e, 1, ⟨2056, 2048⟩⟩] }).injection ≠ [] := by decide

theorem witness_Drawn_dot : (held (word 3 0)).beam.position.Law ∧ Waits (held (word 3 0)) .dot (word 3 0) :=
  ⟨⟨by decide, by decide⟩, witness_Waits _ _ (by decide)⟩
theorem witness_Drawn_glyph : (held (word 4 0)).beam.position.Law ∧ Waits (held (word 4 0)) .glyph (word 4 0) :=
  ⟨⟨by decide, by decide⟩, witness_Waits _ _ (by decide)⟩
theorem witness_Drawn_line : (held (word 1 0)).beam.position.Law ∧ Waits (held (word 1 0)) .line (word 1 0) ∧
    NoTestCounts (held (word 1 0)) :=
  ⟨⟨by decide, by decide⟩, witness_Waits _ _ (by decide), by intro p; cases p <;> decide⟩
theorem witness_Drawn_step : (held (word 2 0)).beam.position.Law ∧ Waits (held (word 2 0)) .step (word 2 0) ∧
    NoTestCounts (held (word 2 0)) :=
  ⟨⟨by decide, by decide⟩, witness_Waits _ _ (by decide), by intro p; cases p <;> decide⟩
theorem witness_Drawn_field : 7 ≤ 7 ∧ 23 < 32 ∧ ¬ (24 ≤ 23 ∧ 23 ≤ 26) := by decide

/-- A LINE up from (100, 0) to (100, 10) that counts for region 5 at (0, 0), with pen A's counter at `k`. -/
def counting (k : Int) : State :=
  let s := withImage { picture with kind := .drawing false (some ⟨5, false⟩) } (held (word 1 (100 * 4096 + 10)))
  ({ s with beam := { s.beam with position := ⟨100, 0⟩, segment := 14 } }).setRegionTest .a
    { phase := .counting, latched := ⟨0, 0⟩, counters := [(5, k)], saturated := [] }

theorem witness_Boundaries_counts : Waits (counting 14) .line (word 1 (100 * 4096 + 10)) ∧
    contribution ⟨0, 0⟩ ⟨100, 0⟩ (wordPoint (word 1 (100 * 4096 + 10))) false = 1 ∧
    ((counting 14).regionTest .a).counter 5 + 1 ≤ 15 := ⟨⟨rfl, by decide, by decide⟩, by decide, by decide⟩
theorem witness_Boundaries_saturates : Waits (counting 15) .line (word 1 (100 * 4096 + 10)) ∧
    contribution ⟨0, 0⟩ ⟨100, 0⟩ (wordPoint (word 1 (100 * 4096 + 10))) false ≠ 0 ∧
    15 < ((counting 15).regionTest .a).counter 5 + 1 := ⟨⟨rfl, by decide, by decide⟩, by decide, by decide⟩
theorem witness_Boundaries_step : Waits (held (word 2 1)) .step (word 2 1) ∧ stepEnd (held (word 2 1)) (word 2 1) = ⟨0, 1⟩ :=
  ⟨witness_Waits _ _ (by decide), by decide⟩
theorem witness_Intensity : 0 ≤ 7 ∧ 7 ≤ 7 := by decide
theorem witness_Eligibility : ∀ kind ∈ [(1, WordKind.line), (2, .step), (3, .dot), (4, .glyph)],
    (held (word kind.1 0)).beam.position.Law ∧ (held (word kind.1 0)).beam.segment ≤ 1023 ∧
      Waits (held (word kind.1 0)) kind.2 (word kind.1 0) := by
  intro kind h
  simp only [List.mem_cons, List.not_mem_nil, or_false] at h
  rcases h with h | h | h | h <;> subst h <;> exact ⟨⟨by decide, by decide⟩, by decide, witness_Waits _ _ (by decide)⟩

def fenced (fence : Fence) (t : Tracker) : State :=
  trackA t (penA { PenEngine.reset with record := { ModeRecord.reset with fence := fence } } State.reset)

theorem witness_Fence_none : ((fenced .none Tracker.reset).pen .a).record.fence = .none := rfl
theorem witness_Fence_fixed_of_one_point : ((fenced (.fixed 7 7 9 9) Tracker.reset).pen .a).record.fence = .fixed 7 7 9 9 ∧
    7 ≤ 7 ∧ 9 ≤ 9 := ⟨rfl, by decide, by decide⟩
theorem witness_Fence_follow_off : ((fenced (.follow 1 1) Tracker.reset).pen .a).record.fence = .follow 1 1 ∧
    ((fenced (.follow 1 1) Tracker.reset).tracker .a).state = .off := ⟨rfl, rfl⟩
theorem witness_Fence_follow_active : ((fenced (.follow 1023 1) (tracking .seeking)).pen .a).record.fence = .follow 1023 1 ∧
    ((fenced (.follow 1023 1) (tracking .seeking)).tracker .a).state ≠ .off ∧
    ((fenced (.follow 1023 1) (tracking .seeking)).tracker .a).position.Law := ⟨rfl, by decide, by decide, by decide⟩

theorem witness_FramePassage : Waits (held (word 6 7)) .frame (word 6 7) ∧ (held (word 6 7)).injection = [] ∧
    Table.wf SegEntry.blank (held (word 6 7)).segments = true ∧ (∀ p, ((held (word 6 7)).regionTest p).phase = .idle) ∧
    (held (word 6 7)).menu.owner = none :=
  ⟨witness_Waits _ _ (by decide), rfl, rfl, by intro p; cases p <;> rfl, rfl⟩

/-- A pending image, and a region test that counts. -/
def staging : State :=
  { testA .counting (penA (tipped .region .regionCount) (held (word 6 7))) with
    segments := [(14, { current := Image.blank, staged := some picture })] }

theorem witness_FramePassage_of_a_region_test : Waits staging .frame (word 6 7) ∧ staging.injection = [] ∧
    Table.wf SegEntry.blank staging.segments = true ∧ staging.rewrite.counter + 1 ≠ staging.rewrite.halfPeriod :=
  ⟨⟨rfl, by decide, by decide⟩, rfl, by decide, by decide⟩

/-- Pen A owns the menu lock over two pages; the idle limit is 2. -/
def owned (counter : Nat) (s : State) : State :=
  { s with menu := { s.menu with stack := [1, 2], owner := some .a, idleCounter := counter, idleLimit := 2 } }

theorem witness_IdleReturn (counter n : Nat) (s : State) (h : s = owned counter (queued n (held (word 6 7)))) :
    Waits s .frame (word 6 7) ∧ s.injection = [] ∧ (∀ p, (s.regionTest p).phase = .idle) ∧ s.menu.owner = some .a ∧
      s.menu.idleLimit ≠ 0 ∧ s.menu.stack = 1 :: [2] := by
  subst h
  exact ⟨⟨rfl, by decide, Nat.succ_pos 7⟩, rfl, by intro p; cases p <;> rfl, rfl, by simp [owned], rfl⟩
theorem witness_IdleReturn_counts : (owned 0 (queued 0 (held (word 6 7)))).menu.idleCounter + 1 ≠ 2 := by decide
theorem witness_IdleReturn_returns : (owned 1 (queued 29 (held (word 6 7)))).menu.idleCounter + 1 = 2 ∧
    Room (owned 1 (queued 29 (held (word 6 7)))) := ⟨rfl, (room_iff _).2 rfl⟩
theorem witness_IdleReturn_waits : (owned 1 (queued 30 (held (word 6 7)))).menu.idleCounter + 1 = 2 ∧
    ¬ Room (owned 1 (queued 30 (held (word 6 7)))) := ⟨rfl, (not_room_iff _).2 rfl⟩

theorem witness_FrameDecides_latches :
    let s := testA .waiting (penA (tipped .region .regionWait) (held (word 6 7)))
    Waits s .frame (word 6 7) ∧ s.injection = [] ∧ (s.regionTest .a).phase = .waiting :=
  ⟨⟨rfl, by decide, by decide⟩, rfl, rfl⟩

/-- Pen A's test counts, with region 3 inside when `inside`. -/
def deciding (inside : Bool) (s : State) : State :=
  let t := testA .counting (penA (tipped .region .regionCount) s)
  { t with regions := { t.regions with records := if inside = true then [(3, ⟨true, .nonzero, 2, 0⟩)] else [] } }.setRegionTest .a
    { phase := .counting, latched := ⟨0, 0⟩, counters := [(3, 1)], saturated := [] }

theorem witness_FrameDecides (inside : Bool) (n : Nat) (s : State) (h : s = deciding inside (queued n (held (word 6 7)))) :
    Waits s .frame (word 6 7) ∧ s.injection = [] ∧ (s.regionTest .a).phase = .counting ∧
      (s.pen .a).attempt = .regionCount ∧ (s.pen .a).record.mode = .region ∧
      (s.regionTest (otherPen .a)).phase ≠ .counting ∧ s.RegionAttemptLaw (otherPen .a) ∧ s.menu.owner = none := by
  subst h
  refine ⟨⟨rfl, by decide, Nat.succ_pos 7⟩, rfl, rfl, rfl, rfl, (fun h => by cases h), ⟨?_, ?_, ?_⟩, rfl⟩
  · constructor <;> intro h <;> cases h
  · constructor <;> intro h <;> cases h
  · rintro (h | h) <;> cases h
theorem witness_FrameDecides_delivers :
    let s := deciding true (queued 29 (held (word 6 7)))
    s.regions.winner (s.regionTest .a) = some 3 ∧ Room s := ⟨by decide, (room_iff _).2 rfl⟩
theorem witness_FrameDecides_holds :
    let s := deciding true (queued 30 (held (word 6 7)))
    s.regions.winner (s.regionTest .a) = some 3 ∧ ¬ Room s := ⟨by decide, (not_room_iff _).2 rfl⟩
theorem witness_FrameDecides_misses :
    let s := deciding false (queued 0 (held (word 6 7)))
    s.regions.winner (s.regionTest .a) = none := by decide

theorem witness_BothTestsCount : let s := (deciding true State.reset).setRegionTest .b { RegionTest.reset with phase := .counting }
    (s.regionTest .a).phase = .counting ∧ (s.regionTest .b).phase = .counting ∧ s.regions.winner (s.regionTest .a) = some 3 ∧
      s.regions.winner (s.regionTest .b) = none := by decide
theorem witness_PassageOrder : ([.menuUnit, .regionTest .b, .regionTest .a] : List PassageBlock).Perm
    [.regionTest .a, .regionTest .b, .menuUnit] := by decide

/-! ### Witnesses: retires and the frame close -/

theorem witness_Retire_drawing : (flying [drawn 0, drawn 1]).beam.flight = drawn 0 :: [drawn 1] ∧ DrawingKind (drawn 0) ∧
    (flying [drawn 0, drawn 1]).decoder.state ≠ .drain := ⟨rfl, Or.inr (Or.inl rfl), by decide⟩
theorem witness_Retire_in_drain :
    let s := { flying [ofKind .pass, drawn 1] with decoder := { ControlDecoder.reset with state := .drain } }
    s.beam.flight = ofKind .pass :: [drawn 1] ∧ [drawn 1] ≠ [] ∧ (ofKind .pass).kind = .pass := ⟨rfl, by decide, rfl⟩
theorem witness_Retire_seg : (flying [ofKind .seg]).beam.flight = ofKind .seg :: [] ∧ (ofKind .seg).kind = .seg ∧
    (flying [ofKind .seg]).decoder.state ≠ .drain := ⟨rfl, rfl, by decide⟩

theorem quiet_of (s : State) (p : Pen) (h1 : (s.pen p).attempt = .off) (h2 : (s.tracker p).state = .off) : Quiet s p :=
  ⟨fun h => (by rw [h1] at h; cases h), fun _ k b h => (by rw [h1] at h; cases h), h2⟩

theorem witness_Retire_frame : (flying [ofKind .frame]).beam.flight = ofKind .frame :: [] ∧ (ofKind .frame).kind = .frame ∧
    (flying [ofKind .frame]).decoder.state ≠ .drain ∧ ∀ p, Quiet (flying [ofKind .frame]) p :=
  ⟨rfl, rfl, by decide, fun p => quiet_of _ _ (by cases p <;> rfl) (by cases p <;> rfl)⟩
theorem witness_Retire_frame_of_any_pen (e : PenEngine) : let s := penA e (trackA (tracking .locked) (flying [ofKind .frame]))
    s.beam.flight = ofKind .frame :: [] ∧ (ofKind .frame).kind = .frame ∧ s.decoder.state ≠ .drain ∧ s.pen .a = e :=
  ⟨rfl, rfl, (fun h => by cases h), rfl⟩
theorem witness_Retire_frame_pens : (engine .press .ready).attempt = .ready ∧ (engine .press (.holding won)).attempt = .holding won ∧
    (engine .continuous (.settled none true)).attempt = .settled none true ∧
    (engine .continuous (.settled none true)).record.mode = .continuous := ⟨rfl, rfl, rfl, rfl⟩
theorem witness_Retire_frame_order : ([.tracker .b, .penEngine .b, .penEngine .a, .tracker .a] : List CloseBlock).Perm
    [.penEngine .a, .penEngine .b, .tracker .a, .tracker .b] := by decide
theorem witness_Retire_frame_in_drain :
    let s := { flying [ofKind .frame, drawn 1] with decoder := { ControlDecoder.reset with state := .drain } }
    s.beam.flight = ofKind .frame :: [drawn 1] ∧ (ofKind .frame).kind = .frame ∧ s.decoder.state = .drain ∧ [drawn 1] ≠ [] :=
  ⟨rfl, rfl, rfl, by decide⟩
theorem witness_Retire_spurious : State.reset.beam.flight = [] := rfl

theorem witness_FrameClose (t : Tracker) :
    let s := trackA t (flying [ofKind .frame])
    s.beam.flight = ofKind .frame :: [] ∧ (ofKind .frame).kind = .frame ∧ s.decoder.state ≠ .drain ∧
      (∀ p, (s.pen p).attempt ≠ .gathering) ∧ s.tracker .a = t :=
  ⟨rfl, rfl, (fun h => by cases h), (by intro p h; cases p <;> cases h), rfl⟩
theorem witness_FrameClose_settles : ({ tracking .locked with settle := true }).state ≠ .off ∧
    ({ tracking .locked with settle := true }).settle = true := by decide
theorem witness_FrameClose_seeks : (tracking .seeking).state = .seeking ∧ (tracking .seeking).settle = false ∧
    struckDots (tracking .seeking).tally.e = 0 := by decide
theorem witness_FrameClose_coasts : (tracking .locked).state = .locked ∧ 1 ≠ (tracking .locked).coastLimit := by decide
theorem witness_FrameClose_loses_at_limit_one :
    ({ tracking .locked with coastLimit := 1 }).state = .locked ∧ 1 = ({ tracking .locked with coastLimit := 1 }).coastLimit := by
  decide
theorem witness_FrameClose_loses : let u := { tracking .coasting with missCount := 3 }
    u.state = .coasting ∧ u.settle = false ∧ u.missCount + 1 = u.coastLimit := by decide
theorem witness_FrameClose_corrects : let u := { tracking .seeking with tally := ⟨1, 0, 0, 0⟩ }
    u.state ≠ .off ∧ u.settle = false ∧ struckDots u.tally.e ≠ 0 := by decide

theorem witness_BlockClose_requests_locked : let u := { tracking .seeking with tally := ⟨1, 0, 0, 0⟩ }
    let s := trackA u State.reset
    (s.tracker .a).state = .seeking ∧ (s.tracker .a).settle = false ∧ (s.tracker .a).trackClaim = none ∧ s.hasRoom = true ∧
      (afterTrackRequest s .a ⟨.locked, ⟨2052, 2048⟩, .host⟩).notices.queue.length = 1 := by decide
theorem witness_BlockClose_track_request_waits :
    let s := trackA { tracking .seeking with tally := ⟨1, 0, 0, 0⟩ } (queued 30 State.reset)
    (s.tracker .a).state = .seeking ∧ (s.tracker .a).settle = false ∧ s.hasRoom = false := by decide
theorem witness_BlockClose_unlocks :
    let s := trackA { tracking .locked with coastLimit := 1 } (testA .waiting (penA (tipped .region .regionWait) State.reset))
    (s.tracker .a).state = .locked ∧ (s.tracker .a).settle = false ∧ (s.tracker .a).coastLimit = 1 ∧
      (s.pen .a).attempt = .regionWait ∧ (afterUnlock s .a).notices.queue.length = 1 := by decide
theorem witness_BlockClose_loses :
    let s := trackA { tracking .coasting with missCount := 3 } State.reset
    (s.tracker .a).state = .coasting ∧ (s.tracker .a).missCount + 1 = (s.tracker .a).coastLimit := by decide
theorem witness_BlockClose_moves : let u := { tracking .locked with tally := ⟨3, 0, 0, 0⟩ }
    struckDots u.tally.e = 2 ∧ u.position ≠ ⟨2056, 2048⟩ ∧ u.lastReported = u.position := by decide
theorem witness_BlockClose_stays : let u := { tracking .locked with tally := ⟨3, 3, 0, 0⟩ }
    struckDots u.tally.e = struckDots u.tally.w ∧ u.position = u.lastReported ∧ u.settle = false := by decide

def request : PositionClaim := { point := ⟨5, 6⟩, origin := .host, final := false }
def claiming (final : Bool) (s : State) : State :=
  trackA { tracking .locked with positionClaim := some { request with final := final } } s

theorem witness_Position_final_waits :
    (∃ c, ((claiming true State.reset).tracker .a).positionClaim = some c ∧ c.final = true) ∧ request.final = false :=
  ⟨⟨_, rfl, rfl⟩, rfl⟩
theorem witness_Position_rewrites : (¬ ∃ c, ((queuedPosition State.reset).tracker .a).positionClaim = some c ∧ c.final = true) ∧
    ∃ n ∈ (queuedPosition State.reset).notices.queue, n.pen = some .a ∧ n.accepted = 0 ∧
      ∃ c, n.body = .position c ∧ c.final = false :=
  ⟨(by rintro ⟨c, h, _⟩; cases h), positionNotice, by simp [queuedPosition], rfl, rfl, ⟨⟨1, 2⟩, .host, false⟩, rfl, rfl⟩
theorem witness_Position_enters : (State.reset.tracker .a).positionClaim = none ∧ Room State.reset ∧
    ∀ n ∈ State.reset.notices.queue, ∀ c, n.body = .position c → n.pen ≠ some .a :=
  ⟨rfl, (room_iff _).2 rfl, by intro n hn; cases hn⟩
theorem witness_Position_replaces : ((claiming false State.reset).tracker .a).positionClaim ≠ none ∧
    (¬ ∃ c, ((claiming false State.reset).tracker .a).positionClaim = some c ∧ c.final = true) ∧
    ∀ n ∈ (claiming false State.reset).notices.queue, ¬ (n.pen = some .a ∧ n.accepted = 0) :=
  ⟨by decide, (by rintro ⟨c, h, hf⟩; cases h; cases hf), by intro n hn; cases hn⟩
theorem witness_Position_waits_for_room : ¬ Room (queued 30 State.reset) ∧
    ((queued 30 State.reset).tracker .a).positionClaim = none ∧
    ∀ n ∈ (queued 30 State.reset).notices.queue, ∀ c, n.body ≠ .position c :=
  ⟨(not_room_iff _).2 rfl, rfl, by intro n hn c h; rw [List.eq_of_mem_replicate hn] at h; cases h⟩

/-- Pen A gathers, with one candidate on segment 14 whose history is `history`. -/
def gathering (history : BitVec 8) (frames : Nat) (s : State) : State :=
  withImage picture (penA { tipped .press .gathering with
    candidates := [⟨⟨14, .ordinal 1⟩, .drawing, history, true, 0, ⟨1, 2⟩⟩], frameCount := frames } s)

theorem witness_Weighing_qualifies : (tipped .press .gathering).record.cycle = false ∧
    ({ ModeRecord.reset with cycle := true }).cycle = true := by decide
theorem witness_Weighing_ranks :
    (State.reset.rankedFirst 3 [⟨⟨14, .ordinal 1⟩, .drawing, 3, true, 0, ⟨1, 2⟩⟩]).isSome = true := by decide
theorem witness_FrameCloseEnds (history : BitVec 8) (frames n : Nat) :
    let s := gathering history frames (queued n (flying [ofKind .frame]))
    s.beam.flight = ofKind .frame :: [] ∧ (ofKind .frame).kind = .frame ∧ s.decoder.state ≠ .drain ∧
      Quiet s (otherPen .a) ∧ (s.tracker .a).state = .off ∧ (s.pen .a).attempt = .gathering :=
  ⟨rfl, rfl, (fun h => by cases h), quiet_of _ _ rfl rfl, rfl, rfl⟩
theorem witness_FrameCloseEnds_goes_on : let s := gathering 0 0 (queued 0 (flying [ofKind .frame]))
    ((s.pen .a).qualify (s.weighedList .a)).1 = [] ∧ (s.pen .a).frameCount + 1 ≠ (s.pen .a).record.span := by decide
theorem witness_FrameCloseEnds_at_span : let s := gathering 0 19 (queued 0 (flying [ofKind .frame]))
    ((s.pen .a).qualify (s.weighedList .a)).1 = [] ∧ (s.pen .a).frameCount + 1 = (s.pen .a).record.span := by decide
theorem witness_FrameCloseEnds_delivers : let s := gathering 1 0 (queued 29 (flying [ofKind .frame]))
    ((s.pen .a).qualify (s.weighedList .a)).1 ≠ [] ∧ Room s ∧ (s.image 14).kind = .drawing false none :=
  ⟨by decide, (room_iff _).2 rfl, rfl⟩
theorem test_exclusions : let keys : List Key := [⟨1, .whole⟩, ⟨2, .whole⟩, ⟨3, .whole⟩, ⟨4, .whole⟩]
    withExclusion keys ⟨2, .whole⟩ = keys ∧ withExclusion keys ⟨1, .ordinal 0⟩ = keys.drop 1 ++ [⟨1, .ordinal 0⟩] ∧
      withExclusion [⟨1, .whole⟩] ⟨2, .whole⟩ = [⟨1, .whole⟩, ⟨2, .whole⟩] := by decide
theorem witness_FrameCloseEnds_holds : let s := gathering 1 0 (queued 30 (flying [ofKind .frame]))
    ((s.pen .a).qualify (s.weighedList .a)).1 ≠ [] ∧ ¬ Room s := ⟨by decide, (not_room_iff _).2 rfl⟩

/-- Pen A weighs beside a locked tracker and a pen B that gathers too. -/
def beside (img : Image) (n : Nat) : State :=
  trackA (tracking .locked) (withImage img ((gathering 1 0 (queued n State.reset)).setPen .b (tipped .press .gathering)))

theorem witness_Weighing_alone (img : Image) (n : Nat) : ((beside img n).pen .a).attempt = .gathering ∧
    ((beside img n).pen .b).attempt = .gathering ∧ ((beside img n).tracker .a).state = .locked ∧
    (beside img n).image 14 = img := ⟨rfl, rfl, rfl, rfl⟩
theorem witness_Weighing_alone_picks : let s := beside { picture with kind := .drawing true none } 29
    ((s.pen .a).qualify (s.weighedList .a)).1 ≠ [] ∧ Room s ∧
      (s.rankedFirst 3 (s.weighedList .a)).map (fun c => (s.image c.key.segment).kind) = some (.drawing true none) :=
  ⟨by decide, (room_iff _).2 rfl, by decide⟩
theorem witness_Weighing_alone_picks_a_menu_item : let s := shown (beside button 29)
    ((s.pen .a).qualify (s.weighedList .a)).1 ≠ [] ∧ Room s ∧
      (s.rankedFirst 3 (s.weighedList .a)).map (fun c => (s.image c.key.segment).kind) = some (.menu 1 0) :=
  ⟨by decide, (room_iff _).2 rfl, by decide⟩
theorem witness_Weighing_alone_holds : let s := beside picture 30
    ((s.pen .a).qualify (s.weighedList .a)).1 ≠ [] ∧ ¬ Room s := ⟨by decide, (not_room_iff _).2 rfl⟩

/-! ### Witnesses: strikes and tip events -/

theorem witness_Strike_stray : (∀ x ∈ (flying [ofKind .frame]).beam.flight, ¬ DrawingKind x) ∧
    (flying [ofKind .frame]).beam.afterglow = none := by
  refine ⟨?_, rfl⟩
  intro x hx
  simp only [flying, List.mem_singleton] at hx
  subst hx
  rintro (h | h | h | h | h) <;> cases h
theorem witness_Strike_entry : (∀ x ∈ ([] : List Entry), ¬ DrawingKind x) ∧ DrawingKind (drawn 0) ∧
    (flying [drawn 0, drawn 1]).beam.flight = [] ++ drawn 0 :: [drawn 1] ∧ (drawn 0).struck.get .a = false :=
  ⟨(by intro x hx; cases hx), Or.inr (Or.inl rfl), rfl, rfl⟩
theorem witness_Strike_mute_move : (ofKind .move).origin = .stream ∧ (ofKind .move).kind = .move ∧
    (ofKind .move).struck.get .a = false := ⟨rfl, rfl, rfl⟩
theorem witness_Strike_mute_mask : let e := { drawn 0 with mask := ⟨false, true⟩ }
    e.origin = .stream ∧ e.mask.get .a = false ∧ e.struck.get .a = false := ⟨rfl, rfl, rfl⟩
theorem witness_Strike_afterglow : let s := { State.reset with beam := { State.reset.beam with afterglow := some (ofKind .move) } }
    (∀ x ∈ s.beam.flight, ¬ DrawingKind x) ∧ s.beam.afterglow = some (ofKind .move) := ⟨(by intro x hx; cases hx), rfl⟩

/-- Element 1 of segment 14 is the one entry in flight, or the afterglow record with none in flight. -/
def hitting (glows : Bool) (s : State) : State :=
  { s with beam := { s.beam with flight := if glows = true then [] else [drawn 1]
                                 afterglow := if glows = true then some (drawn 1) else none } }
def marked (glows : Bool) (s : State) : State :=
  let struck := { drawn 1 with struck := ⟨true, false⟩ }
  { s with beam := { s.beam with flight := if glows = true then [] else [struck]
                                 afterglow := if glows = true then some struck else none } }

theorem strikes_hitting (glows : Bool) (s : State) : Strikes (hitting glows s) .a (drawn 1) (marked glows s) := by
  cases glows
  · exact ⟨rfl, Or.inl ⟨[], [], fun x hx => (by cases hx), Or.inr (Or.inl rfl), rfl, rfl⟩⟩
  · exact ⟨rfl, Or.inr ⟨fun x hx => (by cases hx), rfl, rfl⟩⟩

theorem witness_Hit (glows : Bool) (history : BitVec 8) : let s := hitting glows (gathering history 0 State.reset)
    Strikes s .a (drawn 1) (marked glows (gathering history 0 State.reset)) ∧ (drawn 1).Pickable ∧
      (drawn 1).mask.get .a = true ∧ (s.pen .a).attempt = .gathering ∧ (s.image (drawn 1).key.segment).kind ≠ .unused ∧
      (CandidateKind.drawing = .menu ↔ ∃ n k, (s.image (drawn 1).key.segment).kind = .menu n k) :=
  ⟨strikes_hitting _ _, ⟨rfl, Or.inl rfl⟩, rfl, rfl, (fun h => by cases h),
    ⟨fun h => (by cases h), by rintro ⟨n, k, h⟩; cases h⟩⟩
theorem witness_Hit_on_a_button (glows : Bool) : let s := hitting glows (withImage button (penA (tipped .press .gathering) State.reset))
    Strikes s .a (drawn 1) (marked glows (withImage button (penA (tipped .press .gathering) State.reset))) ∧
      (CandidateKind.menu = .menu ↔ ∃ n k, (s.image (drawn 1).key.segment).kind = .menu n k) :=
  ⟨strikes_hitting _ _, ⟨fun _ => ⟨1, 0, rfl⟩, fun _ => rfl⟩⟩
theorem witness_Hit_known : ∃ c ∈ ((gathering 1 0 State.reset).pen .a).candidates, c.key = (drawn 1).key :=
  ⟨_, List.mem_singleton.2 rfl, rfl⟩
theorem witness_Hit_new : let e := tipped .press .gathering
    (∀ c ∈ e.candidates, c.key ≠ (drawn 1).key) ∧ e.candidates.length < 12 ∧ e.firstSeen = 0 :=
  ⟨(by intro c hc; cases hc), by decide, rfl⟩
theorem witness_Hit_in_other_states (glows : Bool) (mode : Mode) (attempt : AttemptState) :
    let s := withImage picture (penA (engine mode attempt) State.reset)
    Strikes (hitting glows s) .a (drawn 1) (marked glows s) ∧ ((hitting glows s).pen .a).attempt = attempt ∧
      ((hitting glows s).pen .a).record.mode = mode ∧ ((hitting glows s).image (drawn 1).key.segment).kind ≠ .unused :=
  ⟨strikes_hitting _ _, rfl, rfl, fun h => by cases h⟩
theorem witness_Hit_on_the_settled_key :
    (engine .continuous (.settled (some (drawn 1).key) false)).attempt = .settled (some (drawn 1).key) false := rfl
theorem witness_Hit_on_no_segment (glows : Bool) : let s := penA (tipped .press .gathering) State.reset
    Strikes (hitting glows s) .a (drawn 1) (marked glows s) ∧
      ((hitting glows s).image (drawn 1).key.segment).kind = .unused := ⟨strikes_hitting _ _, rfl⟩

/-- Twelve records with the history given. -/
def crowd (history : BitVec 8) : PenEngine :=
  { tipped .press .gathering with
    candidates := (List.range 12).map fun n => ⟨⟨n, .whole⟩, .drawing, history, false, n, ⟨0, 0⟩⟩, firstSeen := 12 }

theorem witness_Hit_displaces : (crowd 1).candidates.length = 12 ∧ ((crowd 1).candidates.map Candidate.key).Nodup ∧
    (∀ c ∈ (crowd 1).candidates, c.key ≠ ⟨14, .ordinal 1⟩) ∧ (crowd 1).firstSeen < 4095 ∧ onesIn (1#8) 8 ≤ 1 := by decide
theorem witness_Hit_is_dropped : (crowd 3).candidates.length = 12 ∧ ((crowd 3).candidates.map Candidate.key).Nodup ∧
    (∀ c ∈ (crowd 3).candidates, c.key ≠ ⟨14, .ordinal 1⟩) ∧ (crowd 3).firstSeen < 4095 ∧ 2 ≤ onesIn (3#8) 8 := by decide

/-- The first-seen counter stands at its end. -/
def exhausted (e : PenEngine) : PenEngine := { e with firstSeen := 4095 }

theorem witness_Hit_renumbers : (exhausted (crowd 1)).firstSeen = 4095 ∧ (exhausted (crowd 1)).candidates.length = 12 ∧
    (∀ c ∈ (exhausted (crowd 1)).candidates, c.key ≠ ⟨14, .ordinal 1⟩) ∧
    ((exhausted (crowd 1)).recordKey ⟨14, .ordinal 1⟩ .drawing ⟨1, 2⟩).firstSeen = 12 := by decide
theorem witness_Hit_renumbers_where_room_is_left : (exhausted (tipped .press .gathering)).firstSeen = 4095 ∧
    (exhausted (tipped .press .gathering)).candidates.length < 12 := by decide

def crossEntry (k : Nat) : Entry := { ofKind .dot with origin := .cross .a .n k }

/-- The state in which dot `k` of the north arm is in flight, or the afterglow record. -/
def crossing (glows : Bool) (entry : Entry) (t : Tracker) : State :=
  let s := trackA t State.reset
  { s with beam := { s.beam with flight := if glows = true then [ofKind .frame] else [ofKind .frame, entry]
                                 afterglow := if glows = true then some entry else none } }

theorem witness_CrossHit (glows : Bool) (t : Tracker) (k : Nat) (h : k = 1 ∨ k = 4) :
    let struck := { crossEntry k with struck := ⟨true, false⟩ }
    Strikes (crossing glows (crossEntry k) t) .a (crossEntry k) (crossing glows struck t) ∧ (crossEntry k).kind = .dot ∧
      (crossEntry k).origin = .cross .a .n k ∧ 1 ≤ k ∧ k ≤ 4 ∧ (crossing glows (crossEntry k) t).tracker .a = t := by
  have dark : ∀ x ∈ [ofKind .frame], ¬ DrawingKind x := by
    intro x hx
    rw [List.mem_singleton] at hx
    subst hx
    rintro (h | h | h | h | h) <;> cases h
  refine ⟨⟨rfl, ?_⟩, rfl, rfl, by omega, by omega, rfl⟩
  cases glows
  · exact Or.inl ⟨[ofKind .frame], [], dark, Or.inr (Or.inr (Or.inr (Or.inl rfl))), rfl, rfl⟩
  · exact Or.inr ⟨dark, rfl, rfl⟩
theorem witness_CrossHit_joins : (tracking .locked).state ≠ .off ∧ (tracking .locked).stale = false := by decide
theorem witness_CrossHit_is_discarded : (tracking .off).state = .off ∧ ({ tracking .locked with stale := true }).stale = true := by
  decide
theorem witness_StrikeLeavesTheOtherPenAlone : ∃ t, exec (.strike .a) (flying [drawn 0]) = .next t := ⟨_, rfl⟩

theorem witness_TipDown_press : let s := penA (engine .press .ready) State.reset
    (s.pen .a).tip = .up ∧ (s.pen .a).attempt = .ready ∧ (s.pen .a).record.mode = .press := ⟨rfl, rfl, rfl⟩
theorem witness_TipDown_region (t : TrackState) : let s := trackA (tracking t) (penA (engine .region .ready) State.reset)
    (s.pen .a).tip = .up ∧ (s.pen .a).attempt = .ready ∧ (s.pen .a).record.mode = .region ∧ (s.tracker .a).state = t :=
  ⟨rfl, rfl, rfl, rfl⟩
theorem witness_TipDown_else : let s := penA (engine .continuous .ready) State.reset
    (s.pen .a).tip = .up ∧ (s.pen .a).record.mode = .continuous ∧ (State.reset.pen .a).attempt ≠ .ready := by decide
theorem witness_TipDown_miss_room : let s := trackA (tracking .coasting) (penA (engine .region .ready) State.reset)
    (s.tracker .a).state ≠ .locked ∧ Room s := ⟨by decide, (room_iff _).2 rfl⟩
theorem witness_TipDown_miss_full : let s := trackA (tracking .coasting) (penA (engine .region .ready) (queued 30 State.reset))
    (s.tracker .a).state ≠ .locked ∧ ¬ Room s := ⟨by decide, (not_room_iff _).2 rfl⟩

theorem witness_TipUp_settled : let s := penA (tipped .press (.settled none false)) State.reset
    (s.pen .a).tip = .down ∧ (s.tracker .a).state = .off ∧ (s.pen .a).attempt = .settled none false ∧
      (s.pen .a).record.mode = .press := ⟨rfl, rfl, rfl, rfl⟩
theorem witness_TipUp_kept : let s := trackA (tracking .locked) (penA (tipped .press (.holding won)) State.reset)
    (s.pen .a).tip = .down ∧ (s.tracker .a).origin = .host ∧ (s.pen .a).attempt = .holding won := ⟨rfl, rfl, rfl⟩
theorem witness_TipUp_released : let s := penA (tipped .press .gathering) State.reset
    (s.pen .a).tip = .down ∧ (s.tracker .a).state = .off ∧ (s.pen .a).attempt = .gathering ∧ (s.pen .a).record.mode = .press :=
  ⟨rfl, rfl, rfl, rfl⟩
theorem witness_TipUp_region : let s := trackA (tracking .locked) (penA (tipped .region .regionCount) State.reset)
    (s.pen .a).tip = .down ∧ (s.tracker .a).origin = .host ∧ (s.pen .a).attempt = .regionCount := ⟨rfl, rfl, rfl⟩
theorem witness_TipUp_continuous : let s := penA (tipped .continuous .gathering) State.reset
    (s.pen .a).tip = .down ∧ (s.tracker .a).state = .off ∧ (s.pen .a).attempt = .gathering ∧
      (s.pen .a).record.mode = .continuous := ⟨rfl, rfl, rfl, rfl⟩
theorem witness_TipUp_drag_in_any_state (attempt : AttemptState) :
    let e := tipped .region attempt
    let s := trackA { tracking .locked with origin := .drag } (penA { e with record := { e.record with dragEnds := true } } State.reset)
    (s.pen .a).tip = .down ∧ (s.tracker .a).state ≠ .off ∧ (s.tracker .a).origin = .drag ∧
      (s.pen .a).record.dragEnds = true ∧ (s.pen .a).attempt = attempt := ⟨rfl, (fun h => by cases h), rfl, rfl, rfl⟩
theorem witness_TipUp_drag :
    let e := tipped .press (.settled none false)
    let s := trackA { tracking .locked with origin := .drag } (penA { e with record := { e.record with dragEnds := true } } State.reset)
    (s.pen .a).tip = .down ∧ (s.tracker .a).state ≠ .off ∧ (s.tracker .a).origin = .drag ∧
      (s.pen .a).record.dragEnds = true ∧ (s.pen .a).record.mode = .press ∧
      (∃ k b, (s.pen .a).attempt = .settled k b) ∧ Room s ∧
      ∀ n ∈ s.notices.queue, ∀ c, n.body = .position c → n.pen ≠ some .a :=
  ⟨rfl, by decide, rfl, rfl, rfl, ⟨none, false, rfl⟩, (room_iff _).2 rfl, by intro n hn; cases hn⟩

/-! ### Witnesses: the notice lane, grants and routing -/

theorem witness_Accept_first_word : (queuedPosition State.reset).notices.queue = positionNotice :: [] ∧
    positionNotice.accepted + 1 < positionNotice.length := by decide
theorem witness_Accept_last_word : LastWordDue (queued 1 State.reset) missNotice [] ∧ NoClaims (queued 1 State.reset) :=
  ⟨⟨rfl, by decide⟩, (noClaims_iff _).2 rfl⟩
theorem witness_Accept_no_room : LastWordDue (queued 31 State.reset) missNotice (List.replicate 30 missNotice) ∧
    30 ≤ (List.replicate 30 missNotice).length := ⟨⟨rfl, by decide⟩, by decide⟩
theorem witness_Grants_last : LastWordDue (queued 30 (penA (engine .press (.holding won)) State.reset)) missNotice
    (List.replicate 29 missNotice) := ⟨rfl, by decide⟩

/-- The next accept of `queued (n + 1) s` frees an entry, which leaves `queued n s`. -/
theorem grantDue_queued (n : Nat) (s : State) (c : Claimant) (h : (queued n s).nextGrant = some c) :
    GrantDue (queued (n + 1) s) c (queued n s) := (grantDue_iff _ _ _).2 ⟨rfl, h⟩

theorem witness_ClaimGrants_track : let s := trackA { tracking .locked with trackClaim := some ⟨.lost, ⟨1, 2⟩, .host⟩ } State.reset
    GrantDue (queued 30 s) (.track .a) (queued 29 s) ∧
      ((queued 29 s).tracker .a).trackClaim = some ⟨.lost, ⟨1, 2⟩, .host⟩ := ⟨grantDue_queued _ _ _ (by decide), rfl⟩
theorem witness_ClaimGrants_position : GrantDue (queued 1 (claiming true State.reset)) (.position .a)
      (queued 0 (claiming true State.reset)) ∧
    ((queued 0 (claiming true State.reset)).tracker .a).positionClaim = some { request with final := true } :=
  ⟨grantDue_queued _ _ _ (by decide), rfl⟩
theorem witness_ClaimGrants_idleReturn :
    let s := { State.reset with menu := { MenuUnit.reset with claim := some ⟨.b, 1, 2, 3⟩ } }
    GrantDue (queued 1 s) .idleReturn (queued 0 s) ∧ (queued 0 s).menu.claim = some ⟨.b, 1, 2, 3⟩ :=
  ⟨grantDue_queued _ _ _ (by decide), rfl⟩
theorem witness_ClaimGrants_no_freed_entry : ∀ c f, ¬ GrantDue State.reset c f := by
  intro c f h
  cases ((grantDue_iff _ _ _).1 h).1
theorem witness_ClaimGrants_room_and_claim_but_no_freed_entry :
    ∀ f, ¬ GrantDue (waitsFor (.held (queryCtrl 9 0 0))) .decoder f := by
  intro f h
  cases ((grantDue_iff _ _ _).1 h).1
theorem witness_ClaimGrants_passed_over : ∀ f, ¬ GrantDue passedOver (.position .a) f := by
  intro f h
  obtain ⟨hf, hc⟩ := (grantDue_iff _ _ _).1 h
  cases hf
  exact absurd hc (by decide)

def holdingWon (img : Image) : State := withImage img (penA (engine .press (.holding won)) State.reset)

theorem witness_PenGrant_pick :
    GrantDue (queued 30 (holdingWon picture)) (.penEngine .a) (queued 29 (holdingWon picture)) ∧
      ((queued 29 (holdingWon picture)).pen .a).attempt = .holding (.winner ⟨14, .ordinal 1⟩ ⟨1240, 2900⟩ false) ∧
      1 ≤ 14 ∧ ∃ b, ((queued 29 (holdingWon picture)).image 14).kind = .drawing false b :=
  ⟨grantDue_queued _ _ _ (by decide), rfl, by decide, none, rfl⟩
theorem witness_PenGrant_drag : let s := holdingWon { picture with kind := .drawing true none }
    GrantDue (queued 1 s) (.penEngine .a) (queued 0 s) ∧ ((queued 0 s).pen .a).attempt = .holding won ∧
      ∃ b, ((queued 0 s).image 14).kind = .drawing true b := ⟨grantDue_queued _ _ _ (by decide), rfl, none, rfl⟩
theorem witness_PenGrant_unused : let s := holdingWon Image.blank
    GrantDue (queued 1 s) (.penEngine .a) (queued 0 s) ∧ ((queued 0 s).pen .a).attempt = .holding won ∧
      ((queued 0 s).image 14).kind = .unused := ⟨grantDue_queued _ _ _ (by decide), rfl, rfl⟩
theorem witness_PenGrant_menu : let s := holdingWon button
    GrantDue (queued 1 s) (.penEngine .a) (queued 0 s) ∧
      ((queued 0 s).pen .a).attempt = .holding (.winner ⟨14, .ordinal 1⟩ ⟨1240, 2900⟩ false) ∧
      ((queued 0 s).image 14).kind = .menu 1 0 ∧ ((queued 0 s).pen .a).record.mark = false :=
  ⟨grantDue_queued _ _ _ (by decide), rfl, rfl, rfl⟩
theorem witness_PenGrant_menu_marks : let e := engine .press (.holding won)
    let s := withImage button (penA { e with record := { e.record with mark := true } } State.reset)
    GrantDue (queued 1 s) (.penEngine .a) (queued 0 s) ∧ ((queued 0 s).pen .a).attempt = .holding won ∧
      ((queued 0 s).image 14).kind = .menu 1 0 ∧ ((queued 0 s).pen .a).record.mark = true :=
  ⟨grantDue_queued _ _ _ (by decide), rfl, rfl, rfl⟩
theorem witness_PenGrant_region : let s := penA (engine .region (.holding (.region 3 ⟨1, 2⟩ false))) State.reset
    GrantDue (queued 1 s) (.penEngine .a) (queued 0 s) ∧ ((queued 0 s).pen .a).attempt = .holding (.region 3 ⟨1, 2⟩ false) :=
  ⟨grantDue_queued _ _ _ (by decide), rfl⟩
theorem witness_DecoderGrant_query : let s := queued 30 (waitsFor (.held (queryCtrl 9 0 0)))
    LastWordDue s missNotice (List.replicate 29 missNotice) ∧ (List.replicate 29 missNotice).length < 30 ∧
      s.decoder.state = .held (queryCtrl 9 0 0) ∧
      replyOf { freed s (List.replicate 29 missNotice) with decoder := { s.decoder with state := .idle } } 0 9 =
        some (.part 1 false false) := ⟨⟨rfl, by decide⟩, by decide, rfl, rfl⟩
theorem witness_DecoderGrant_item : let s := queued 1 (shown (waitsFor (.held (ctrl 0x25 0 0x10#16))))
    LastWordDue s missNotice [] ∧ s.decoder.state = .held (ctrl 0x25 0 0x10#16) ∧
      s.menu.stack.getLast? = some (field 0x10#16 4 5) ∧
      s.menu.item (field 0x10#16 4 5) (field 0x10#16 0 4) = some ⟨.command 7 .stay, false, 2⟩ :=
  ⟨⟨rfl, by decide⟩, rfl, by decide, by decide⟩
theorem witness_DecoderGrant_no_item : let s := queued 1 (waitsFor (.held (ctrl 0x25 0 0x10#16)))
    LastWordDue s missNotice [] ∧ s.decoder.state = .held (ctrl 0x25 0 0x10#16) ∧
      ¬ ShownOnTop s (field 0x10#16 4 5) (field 0x10#16 0 4) :=
  ⟨⟨rfl, by decide⟩, rfl, fun h => by cases h.1⟩
theorem witness_NoticeIsRouted : State.reset.notices.lru.Perm [0, 1, 2, 3] := List.Perm.refl _
theorem witness_HeaderWord : missNotice.channel ≤ 3 ∧ ({ missNotice with channel := 3 }).channel ≤ 3 := by decide
theorem witness_HeaderWord_fits :
    Fit (contentFields (.pick ⟨1023, .ordinal 4095⟩ 15 ⟨4095, 4095⟩ true true true)) ∧
    Fit (contentFields (.miss .stalled 63 12 true)) ∧ Fit (contentFields (.idleReturn 31 31 6)) ∧
    Fit (contentFields (.reply (.track .b Tracker.reset.status))) ∧
    ∀ w ∈ payloadFields (.pick ⟨1023, .ordinal 4095⟩ 15 ⟨4095, 4095⟩ true true true), Fit w := by
  simp only [Fit, contentFields, payloadFields, pointFields, replyFields, List.forall_mem_cons, List.not_mem_nil,
    IsEmpty.forall_iff, implies_true]
  decide
theorem witness_HeaderWord_of_a_pen : ({ PenEngine.reset.status with
      candidates := 12, exclusions := [⟨1023, .whole⟩, ⟨1023, .ordinal 4095⟩, ⟨1, .whole⟩, ⟨2, .whole⟩] }).exclusions.length ≤ 4 ∧
    12 ≤ 15 ∧ (∀ k ∈ [(⟨1023, .whole⟩ : Key), ⟨1023, .ordinal 4095⟩], k.segment ≤ 1023) := by decide
theorem witness_Presented : (queued 1 State.reset).notices.queue = missNotice :: [] ∧ State.reset.notices.queue = [] :=
  ⟨rfl, rfl⟩
theorem witness_Fault_with_room : (queued 31 State.reset).notices.queue.length < 32 := by decide
theorem witness_Fault_without_room : 32 ≤ (queued 32 State.reset).notices.queue.length := by decide

/-! ### Witnesses: control orders

`Listens` holds of the reset state (`listens_reset`) and of every state below, which differs from it in other
blocks only. -/

theorem witness_Load_in_range : Listens State.reset ∧ 1 ≤ [(0x60000000#32, 0#32)].length ∧
    [(0x60000000#32, 0#32)].length ≤ 7 ∧
    [(0x60000000#32, 0#32)].map imageOfWords = [{ picture with cls := 0, priority := 0, grain := .segment }].map some ∧
    1 ≤ State.reset.decoder.cursor ∧ State.reset.decoder.cursor ≤ 1023 := ⟨⟨rfl, rfl⟩, by decide⟩
theorem witness_Load_of_each_kind :
    [(0x3FFFFFFF#32, 0xFFFFFFFF#32), (0x7FFFFFFF#32, 0xFFFFFFFF#32), (0x80000000#32, 0x1FB#32)].map imageOfWords =
      [Image.blank, ⟨.drawing true (some ⟨63, true⟩), true, .blank, 15, 7, .element, 15⟩,
        { Image.blank with kind := .menu 31 11, grain := .segment }].map some := by decide
theorem witness_Load_past_the_end :
    let s := { State.reset with decoder := { ControlDecoder.reset with cursor := 1023 } }
    Listens s ∧ [((0 : Word), (0 : Word)), (0, 0)].map imageOfWords = [Image.blank, Image.blank].map some ∧ 1 ≤ s.decoder.cursor ∧ s.decoder.cursor ≤ 1023 ∧
      1024 - s.decoder.cursor < 2 := ⟨⟨rfl, rfl⟩, by decide⟩
theorem witness_Load_refused_item : Listens State.reset ∧
    ∃ w ∈ [(0x80000000#32, 0xC#32)], field w.1 30 2 = 3 ∨ (field w.1 30 2 = 2 ∧ 12 ≤ field w.2 0 4) :=
  ⟨⟨rfl, rfl⟩, by decide⟩
theorem witness_Load_refused_kind :
    ∃ w ∈ [(0xC0000000#32, 0#32)], field w.1 30 2 = 3 ∨ (field w.1 30 2 = 2 ∧ 12 ≤ field w.2 0 4) := by decide
theorem witness_SegShow_run : 1 ≤ field 0x000103FF#32 16 16 ∧ field 0x000103FF#32 0 16 ≤ 1023 ∧
    field 0x000103FF#32 16 16 ≤ field 0x000103FF#32 0 16 := by decide
theorem witness_SegShow_refused : ¬ (1 ≤ field 0x00010400#32 16 16 ∧ field 0x00010400#32 0 16 ≤ 1023 ∧
    field 0x00010400#32 16 16 ≤ field 0x00010400#32 0 16) := by decide
theorem witness_RegionLoad : field 63#16 0 6 ≠ 0 ∧ field 64#16 0 6 = 0 := by decide
theorem witness_PageLoad_wrong_count : [0#32].length ≠ 0 ∧ (0#16).getLsbD 10 = false ∧ [0#32].length ≤ 15 := by decide
theorem witness_PageLoad_valid : let words := List.replicate 12 0#32
    words.length = field 0x040C#16 0 4 ∧ (0x040C#16).getLsbD 10 = true ∧ 12 ≤ 12 ∧
      words.map itemOfWord = (List.replicate 12 ⟨.descend 0, false, 0⟩).map some := by decide
theorem witness_PageLoad_items : [0x0700001F#32, 0x20000000#32, 0x4A0000FF#32, 0x70000000#32].map itemOfWord =
    [⟨.descend 31, true, 3⟩, ⟨.ascend, false, 0⟩, ⟨.command 255 .ascend, false, 2⟩, ⟨.toggle .root, false, 0⟩].map some := by
  decide
theorem witness_PageLoad_invalid : ([] : List Word).length = 0 ∧ (0#16).getLsbD 10 = false := by decide
theorem witness_PageLoad_refused_count : (List.replicate 13 0#32).length = field 0x040D#16 0 4 ∧
    (0x040D#16).getLsbD 10 = true ∧ 12 < field 0x040D#16 0 4 ∧ field 0x0400#16 0 4 = 0 := by decide
theorem witness_PageLoad_refused_item : [0x80000000#32].length = field 0x0401#16 0 4 ∧ (0x0401#16).getLsbD 10 = true ∧
    itemOfWord 0x80000000#32 = none ∧ itemOfWord 0x58000000#32 = none := by decide

theorem witness_MenuPick_locked : ({ MenuUnit.reset with owner := some .b }).owner = some (otherPen .a) := rfl
theorem witness_MenuPick_stale : MenuUnit.reset.owner ≠ some (otherPen .a) ∧ MenuUnit.reset.stack.getLast? ≠ some 1 := by decide
theorem witness_MenuPick_acts : (shown State.reset).menu.owner ≠ some (otherPen .a) ∧
    (shown State.reset).menu.stack.getLast? = some 1 ∧
    (shown State.reset).menu.item 1 0 = some ⟨.command 7 .stay, false, 2⟩ := by decide
theorem witness_MenuAction : ((shown State.reset).menu.page 1).valid = true ∧
    ((shown State.reset).menu.page 1).items[0]? = some ⟨.command 7 .stay, false, 2⟩ := by decide
theorem witness_MenuAction_each :
    (⟨.descend 31, false, 0⟩ : Item).action = .descend 31 ∧ (⟨.ascend, false, 0⟩ : Item).action = .ascend ∧
      (⟨.toggle .root, true, 0⟩ : Item).action = .toggle .root := ⟨rfl, rfl, rfl⟩
theorem witness_ForceItem_acts : Listens (shown State.reset) ∧ Room (shown State.reset) ∧ field 0x10#16 0 4 < 12 ∧
    (shown State.reset).menu.stack.getLast? = some (field 0x10#16 4 5) ∧
    (shown State.reset).menu.item (field 0x10#16 4 5) (field 0x10#16 0 4) = some ⟨.command 7 .stay, false, 2⟩ :=
  ⟨⟨rfl, rfl⟩, (room_iff _).2 rfl, by decide⟩
theorem witness_ForceItem_refused : 12 ≤ field 12#16 0 4 ∧ Room State.reset ∧
    ¬ ShownOnTop State.reset (field 0x1B#16 4 5) (field 0x1B#16 0 4) :=
  ⟨by decide, (room_iff _).2 rfl, fun h => by cases h.1⟩
theorem witness_ForceItem_held : Listens (queued 30 State.reset) ∧ field 11#16 0 4 < 12 ∧ ¬ Room (queued 30 State.reset) :=
  ⟨⟨rfl, rfl⟩, by decide, (not_room_iff _).2 rfl⟩

/-- A PEN MODE argument for pen A with the mode given, and a data word with W 8, C 8 and span 63. -/
def modeArg (mode : Nat) : Arg := BitVec.ofNat 16 (mode * 2 ^ 12)
def modeWord : Word := 0xFFFF883F#32

theorem witness_PenMode_in_range : let r := modeRecord .none (modeArg 1) modeWord
    penOf (modeArg 1) = .a ∧ r.w ≠ 0 ∧ r.w ≤ 8 ∧ r.c ≠ 0 ∧ r.c ≤ r.w ∧ r.span ≠ 0 ∧ r.mode = .press ∧ r.mode ≠ .off := by decide
theorem witness_PenMode_from_off : Listens State.reset ∧ (State.reset.pen .a).record.fence = .none ∧
    (State.reset.pen .a).tip = .up ∧ (State.reset.pen .a).attempt = .off := ⟨⟨rfl, rfl⟩, rfl, rfl, rfl⟩
theorem witness_PenMode_discards : let s := penA (engine .press (.holding won)) State.reset
    Listens s ∧ (s.pen .a).tip = .up ∧ (s.pen .a).attempt = .holding won := ⟨⟨rfl, rfl⟩, rfl, rfl⟩
theorem witness_PenMode_aborts : let s := penA (engine .continuous .gathering) State.reset
    Listens s ∧ (s.pen .a).tip = .up ∧ (s.pen .a).attempt = .gathering := ⟨⟨rfl, rfl⟩, rfl, rfl⟩
theorem witness_PenMode_restarts : let s := penA (tipped .continuous .ready) State.reset
    Listens s ∧ (s.pen .a).tip = .down ∧ (s.pen .a).attempt = .ready := ⟨⟨rfl, rfl⟩, rfl, rfl⟩
theorem witness_PenMode_press_restarts : let s := penA (tipped .press .regionWait) (queued 29 State.reset)
    Listens s ∧ (modeRecord .none (modeArg 1) modeWord).mode = .press ∧ (s.pen .a).tip = .down := ⟨⟨rfl, rfl⟩, by decide, rfl⟩
theorem witness_PenMode_region_restarts (t : TrackState) : let s := trackA (tracking t) (penA (tipped .press .gathering) State.reset)
    Listens s ∧ (modeRecord .none (modeArg 3) modeWord).mode = .region ∧ (s.pen .a).tip = .down ∧ (s.tracker .a).state = t :=
  ⟨⟨rfl, rfl⟩, by decide, rfl, rfl⟩
theorem witness_PenModeOff_gathering : Listens (penA (tipped .press .gathering) State.reset) ∧
    ((penA (tipped .press .gathering) State.reset).pen .a).attempt = .gathering := ⟨⟨rfl, rfl⟩, rfl⟩
theorem witness_PenModeOff : let s := trackA (tracking .locked) (penA (tipped .press (.settled none false)) State.reset)
    Listens s ∧ (modeRecord .none (modeArg 0) modeWord).mode = .off ∧ (s.pen .a).attempt = .settled none false :=
  ⟨⟨rfl, rfl⟩, by decide, rfl⟩
theorem witness_PenMode_refused : field 0x0214#32 12 4 = 0 ∧ 9 ≤ field 0x9214#32 12 4 ∧ field 0x3014#32 8 4 = 0 ∧
    field 0x3414#32 12 4 < field 0x3414#32 8 4 ∧ field 0x3200#32 0 6 = 0 := by decide
theorem witness_PenFence_modes : field 0#16 0 2 = 0 ∧ field 1#16 0 2 = 1 ∧ field 2#16 0 2 = 2 ∧ field 3#16 0 2 = 3 := by decide
theorem witness_TrackSet_accepted : let s := trackA (tracking .locked) (penA (engine .press .ready) State.reset)
    Listens s ∧ ((s.pen .a).record.mode ≠ .off ∧ 2 ≤ field 0x020F#16 8 7 ∧ field 0x020F#16 8 7 ≤ 64 ∧ field 0x020F#16 0 4 ≠ 0) ∧
      (s.pen .a).attempt ≠ .regionWait ∧ (s.pen .a).attempt ≠ .regionCount := ⟨⟨rfl, rfl⟩, by decide⟩
theorem witness_TrackSet_ends_a_region_attempt :
    let s := trackA (tracking .locked) (penA (tipped .region .regionWait) State.reset)
    Listens s ∧ ((s.pen .a).record.mode ≠ .off ∧ 2 ≤ field 0x4001#16 8 7 ∧ field 0x4001#16 8 7 ≤ 64 ∧ field 0x4001#16 0 4 ≠ 0) ∧
      (s.tracker .a).state = .locked ∧ (s.pen .a).attempt = .regionWait := ⟨⟨rfl, rfl⟩, by decide⟩
theorem witness_TrackSet_refused :
    ¬ ((State.reset.pen .a).record.mode ≠ .off ∧ 2 ≤ field 0x0804#16 8 7 ∧ field 0x0804#16 8 7 ≤ 64 ∧ field 0x0804#16 0 4 ≠ 0) := by
  decide
theorem witness_TrackOff : Listens (trackA (tracking .seeking) State.reset) ∧
    ((trackA (tracking .seeking) State.reset).tracker .a).state ≠ .locked := ⟨⟨rfl, rfl⟩, by decide⟩

theorem witness_TrackOff_ends_a_region_attempt :
    let s := trackA (tracking .locked) (penA (tipped .region .regionCount) State.reset)
    Listens s ∧ (s.tracker .a).state = .locked ∧ (s.pen .a).attempt = .regionCount := ⟨⟨rfl, rfl⟩, rfl, rfl⟩
theorem witness_Query_answered : Listens State.reset ∧ Room State.reset ∧
    ∀ q ∈ queries 3 1023, q.2.2 = decide (q.1 = 3) := ⟨⟨rfl, rfl⟩, (room_iff _).2 rfl, by decide⟩
theorem witness_Query_item_answered : ∀ q ∈ queries 0 0x1FB, q.2.2 = false := by decide
theorem witness_Query_held : Listens (queued 30 State.reset) ∧ ¬ Room (queued 30 State.reset) :=
  ⟨⟨rfl, rfl⟩, (not_room_iff _).2 rfl⟩
theorem witness_Query_refused : ∀ q ∈ queries 0 0, q.2.2 = decide (q.1 ≤ 1) := by decide

/-! ### Witnesses: time and the laws -/

theorem witness_Expiry_runs : (runs 1 255).supervisor.timer = .running 1 ∧ (runs 1 255).beam.flight.length ≤ 8 ∧
    (runs 1 255).supervisor.setting ≤ 255 := by decide
theorem witness_Expiry_order : ([.b, .a, .b, .a] : List Pen).Perm [.a, .a, .b, .b] := by decide
theorem witness_Expiry_blocks : let s := trackA (tracking .locked) (penA (tipped .region .regionCount) (queued 29 State.reset))
    (s.pen .a).attempt = .regionCount ∧ (s.tracker .a).state = .locked ∧ s.hasRoom = true ∧
      (s.blockExpiry (.penEngine .a)).hasRoom = false := by decide
theorem witness_Expiry_does_not_run : State.reset.supervisor.timer = .off ∧
    ({ Supervisor.reset with timer := .stalled }).timer = .stalled := ⟨rfl, rfl⟩

/-- A state with a command to take and a load cursor that has moved. -/
def busy : State :=
  { State.reset with pending := [.noticeAccept], decoder := { ControlDecoder.reset with cursor := 1023, endFlag := true } }

theorem witness_Step : ∃ t, step busy = .next t := ⟨_, rfl⟩
theorem witness_StepKeepsThePositions : busy.TrackerLaw := by
  refine ⟨⟨⟨by decide, by decide⟩, by decide, by decide, by decide, ?_, ?_, ?_⟩, ?_, ?_⟩
  · intro e he; cases he
  · intro e he; cases he
  · intro d hd; cases hd
  · intro p
    cases p <;>
      exact ⟨⟨⟨by decide, by decide⟩, ⟨by decide, by decide⟩, by decide, by decide, by decide, by decide, by decide, by decide⟩,
        ⟨(by intro c hc; cases hc), (by intro c hc; cases hc)⟩,
        ⟨(by intro c hc; cases hc), (by intro o ho; cases ho)⟩, by decide, by decide⟩
  · intro n hn; cases hn
theorem witness_StepKeepsThePens : busy.PenLaw := by
  refine ⟨fun p => ⟨⟨fun _ => ?_, fun _ => ?_⟩, ?_, ?_, ?_⟩, fun _ => rfl, fun p h => by cases h⟩
  · cases p <;> exact ⟨rfl, rfl, rfl, rfl, rfl⟩
  · cases p <;> rfl
  · constructor <;> intro h <;> cases p <;> cases h
  · constructor <;> intro h <;> cases p <;> cases h
  · rintro (h | h) <;> cases p <;> cases h
theorem witness_StepKeepsTheLists : busy.ListLaw ∧ busy.PenLaw := by
  refine ⟨fun p => ?_, witness_StepKeepsThePens⟩
  cases p <;>
    exact ⟨⟨by decide, by decide, by decide, by decide, by decide, by decide, by decide⟩, by decide, by decide, by decide,
      by decide, by decide, by decide, by decide, by decide, by decide⟩
theorem witness_StepKeepsTheTables : busy.WindingLaw ∧ busy.MenuLaw ∧ busy.TableLaw := by
  refine ⟨fun p r => ?_, ⟨⟨by decide, by decide, fun n hn => ?_⟩, fun n => ⟨⟨fun h => ?_, fun _ => rfl⟩, fun i hi => ?_⟩⟩, ?_⟩
  · cases p <;> exact ⟨by show -15 ≤ (0 : Int); decide, by show (0 : Int) ≤ 15; decide⟩
  · cases hn
  · cases h
  · cases hi
  · exact ⟨rfl, rfl, rfl, rfl, fun p => by cases p <;> exact ⟨rfl, rfl⟩⟩
theorem witness_StepKeepsTheQueue : busy.QueueLaw ∧ busy.LruLaw :=
  ⟨⟨by decide, by decide, (by intro p; exact Nat.zero_le 1), (by intro n hn; cases hn), by intro n hn; cases hn⟩, List.Perm.refl _⟩
theorem witness_StepKeepsTheDecoder : busy.DecoderLaw ∧ busy.SupervisorLaw := by
  refine ⟨⟨?_, ?_, ?_, ?_, by decide, by decide, fun _ => rfl⟩, by decide, ?_, fun _ => rfl, ⟨fun _ => rfl, fun _ => rfl⟩, ?_⟩
  · intro c g h; cases h
  · intro c h; cases h
  · intro h; cases h
  · intro h; exact absurd rfl h
  · intro ms h; cases h
  · intro h; cases h

end Sys2Proof.Test
end

section
/-! Eligibility and Rewrite (03) in the words of the statements: where a menu button is shown, the intensity sent,
the fences, and the seven tests of a drawing order's entry. -/

namespace Sys2Proof.Machine

/-! ### Coordinates and fields -/

/-- R44: the lower end of a rectangle centred on a coordinate in range. -/
theorem clampCoord_sub {x : Nat} (hx : x ≤ 4095) (h : Nat) : clampCoord ((x : Int) - h) = x - h := by
  unfold clampCoord Config.maxCoord; omega

/-- R44: the upper end of a rectangle centred on a coordinate. -/
theorem clampCoord_add (x h : Nat) : clampCoord ((x : Int) + h) = min 4095 (x + h) := by
  unfold clampCoord Config.maxCoord; omega

theorem clampCoord_eq_toNat (v : Int) : clampCoord v = (max 0 (min 4095 v)).toNat := by
  unfold clampCoord Config.maxCoord; omega

theorem orderIntensity_le (w : Word) : orderIntensity w ≤ 7 := by
  have : orderIntensity w < 2 ^ 3 := (w.extractLsb' 24 3).isLt
  omega

/-- 2.1: segment 0 has no entry, so a segment whose image is not UNUSED is another. -/
theorem State.segment_ne_zero_of_used (s : State) {seg : Nat} (h : (s.image seg).kind ≠ .unused) : seg ≠ 0 := by
  rintro rfl
  exact h rfl

/-! ### The intensity rewrite (R40), one equation for each kind of image -/

@[simp] theorem State.sentIntensity_zero (s : State) (seg : Nat) : s.sentIntensity seg 0 = 0 := rfl

theorem State.sentIntensity_unused {s : State} {seg : Nat} (h : (s.image seg).kind = .unused) (i : Nat) :
    s.sentIntensity seg i = i := by
  simp only [State.sentIntensity, h]
  split
  · next hi => exact hi.symm
  · rfl

theorem State.sentIntensity_drawing {s : State} {seg i : Nat} {drag : Bool} {bound : Option Bound}
    (h : (s.image seg).kind = .drawing drag bound) (hi : i ≠ 0) :
    s.sentIntensity seg i =
      if (s.image seg).display = .blank then 0 else s.displayIntensity seg false i := by
  simp only [State.sentIntensity, h, if_neg hi]

theorem State.sentIntensity_menu {s : State} {seg i n k : Nat} (h : (s.image seg).kind = .menu n k) (hi : i ≠ 0) :
    s.sentIntensity seg i =
      if s.menu.shown n k = .hidden then 0
      else if (s.image seg).display = .blank then 0
      else if s.menu.shown n k = .belowTop then min i 2
      else s.displayIntensity seg ((s.menu.item n k).any (·.toggle)) i := by
  simp only [State.sentIntensity, h, if_neg hi]

theorem State.echoed_iff (s : State) (seg : Nat) :
    s.echoed seg = true ↔ s.rewrite.echo.a = some seg ∨ s.rewrite.echo.b = some seg := by
  simp [State.echoed]

theorem State.displayIntensity_le (s : State) (seg : Nat) (lit : Bool) {i : Nat} (hi : i ≤ 7) :
    s.displayIntensity seg lit i ≤ 7 := by
  simp only [State.displayIntensity]
  split_ifs <;> omega

/-- R40: the intensity sent lies in 0..7. -/
theorem State.sentIntensity_le (s : State) (seg : Nat) {i : Nat} (hi : i ≤ 7) : s.sentIntensity seg i ≤ 7 := by
  by_cases h0 : i = 0
  · subst h0; simp
  have display := fun lit => s.displayIntensity_le seg lit hi
  cases h : (s.image seg).kind with
  | unused => rwa [State.sentIntensity_unused h]
  | drawing drag bound =>
    rw [State.sentIntensity_drawing h h0]
    split_ifs
    · omega
    · exact display _
  | menu n k =>
    rw [State.sentIntensity_menu h h0]
    split_ifs
    · omega
    · omega
    · omega
    · exact display _

/-! ### Passages (R3, R13, R38) -/

@[simp] theorem State.countBoundary_beam (s : State) (seg : Nat) (p0 p1 : Point) :
    (s.countBoundary seg p0 p1).beam = s.beam := by
  unfold State.countBoundary; split <;> rfl

@[simp] theorem State.passDrawn_flight (s : State) (kind : EntryKind) (w : Word) (lit : Bool) (p0 p1 : Point) :
    (s.passDrawn kind w lit p0 p1).beam.flight = s.beam.flight ++ [s.drawnEntry kind w lit p0 p1] := rfl

@[simp] theorem State.drawnEntry_mask_get (s : State) (kind : EntryKind) (w : Word) (lit : Bool) (p0 p1 : Point)
    (p : Pen) : (s.drawnEntry kind w lit p0 p1).mask.get p =
      s.eligible p s.beam.segment lit p0 p1 (s.sentIntensity s.beam.segment (orderIntensity w)) := by
  cases p <;> rfl

/-! ### Eligibility (R42) -/

theorem Mode.picks_iff (m : Mode) : m.picks = true ↔ m = .press ∨ m = .continuous ∨ m = .region := by
  cases m <;> decide

theorem State.eligible_iff (s : State) (p : Pen) (seg : Nat) (lit : Bool) (p0 p1 : Point) (sent : Nat) :
    s.eligible p seg lit p0 p1 sent = true ↔
      (s.pen p).record.mode.picks = true ∧ lit = true ∧ seg ≠ 0 ∧ s.entryPickable seg = true ∧
        (s.pen p).record.classes.getLsbD (s.image seg).cls = true ∧ sent ≠ 0 ∧ s.fencePasses p p0 p1 = true := by
  simp only [State.eligible, Bool.and_eq_true, decide_eq_true_eq, and_assoc]

end Sys2Proof.Machine

namespace Sys2Proof.Stated

open Sys2Proof.Machine

/-! ### Menu buttons (R41) -/

theorem menuItem_eq_some_iff (s : State) (n k : Nat) (item : Item) :
    s.menu.item n k = some item ↔ (s.menu.page n).valid = true ∧ (s.menu.page n).items[k]? = some item := by
  unfold MenuUnit.item
  split <;> simp_all

theorem menuItem_isNone_iff (s : State) (n k : Nat) : (s.menu.item n k).isNone = true ↔ ¬ ItemExists s n k := by
  unfold MenuUnit.item ItemExists
  split <;> simp_all

theorem shown_eq_onTop_iff (s : State) (n k : Nat) : s.menu.shown n k = .onTop ↔ ShownOnTop s n k := by
  unfold MenuUnit.shown ShownOnTop MenuUnit.top
  have absent := menuItem_isNone_iff s n k
  split_ifs <;> simp_all

theorem shown_eq_belowTop_iff (s : State) (n k : Nat) : s.menu.shown n k = .belowTop ↔ ShownBelow s n k := by
  unfold MenuUnit.shown ShownBelow MenuUnit.top
  have absent := menuItem_isNone_iff s n k
  split_ifs <;> simp_all

theorem shown_eq_hidden_iff (s : State) (n k : Nat) :
    s.menu.shown n k = .hidden ↔ ¬ ShownOnTop s n k ∧ ¬ ShownBelow s n k := by
  rw [← shown_eq_onTop_iff, ← shown_eq_belowTop_iff]
  cases s.menu.shown n k <;> simp

/-- R40 row 6: the toggle state of an item that exists is that of its place on the page. -/
theorem menuItem_toggle_iff {s : State} {n k : Nat} (h : s.menu.shown n k ≠ .hidden) :
    (s.menu.item n k).any (·.toggle) = true ↔
      ∃ item, (s.menu.page n).items[k]? = some item ∧ item.toggle = true := by
  have valid : (s.menu.page n).valid = true := by
    by_contra hv
    exact h (by simp [MenuUnit.shown, MenuUnit.item, hv])
  simp [Option.any_eq_true, menuItem_eq_some_iff, valid]

/-! ### Fences (R43, R44) -/

/-- R43: two ranges of coordinates share a value exactly when neither lies past the other. -/
theorem exists_mem_both_ranges_iff {lo hi a b : Nat} (h : lo ≤ hi) (hab : a ≤ b) :
    (∃ x, lo ≤ x ∧ x ≤ hi ∧ a ≤ x ∧ x ≤ b) ↔ lo ≤ b ∧ a ≤ hi := by
  constructor
  · rintro ⟨x, hlo, hhi, ha, hb⟩
    exact ⟨hlo.trans hb, ha.trans hhi⟩
  · rintro ⟨hb, ha⟩
    exact ⟨max lo a, le_max_left _ _, max_le h ha, le_max_right _ _, max_le hb hab⟩

/-- R43: the bounding box of the two points and the rectangle share a point, edges included. -/
def SharesPoint (p0 p1 : Point) (xmin xmax ymin ymax : Nat) : Prop :=
  ∃ x y, min p0.x p1.x ≤ x ∧ x ≤ max p0.x p1.x ∧ min p0.y p1.y ≤ y ∧ y ≤ max p0.y p1.y ∧
    xmin ≤ x ∧ x ≤ xmax ∧ ymin ≤ y ∧ y ≤ ymax

theorem boxMeets_iff_sharesPoint (p0 p1 : Point) {xmin xmax ymin ymax : Nat} (hx : xmin ≤ xmax) (hy : ymin ≤ ymax) :
    boxMeets p0 p1 xmin xmax ymin ymax = true ↔ SharesPoint p0 p1 xmin xmax ymin ymax := by
  have onX := exists_mem_both_ranges_iff (min_le_max (a := p0.x) (b := p1.x)) hx
  have onY := exists_mem_both_ranges_iff (min_le_max (a := p0.y) (b := p1.y)) hy
  calc boxMeets p0 p1 xmin xmax ymin ymax = true
      ↔ (min p0.x p1.x ≤ xmax ∧ xmin ≤ max p0.x p1.x) ∧ (min p0.y p1.y ≤ ymax ∧ ymin ≤ max p0.y p1.y) := by
        simp only [boxMeets, Bool.and_eq_true, decide_eq_true_eq, and_assoc]
    _ ↔ SharesPoint p0 p1 xmin xmax ymin ymax := by
        rw [← onX, ← onY]
        constructor
        · rintro ⟨⟨x, h1, h2, h3, h4⟩, y, h5, h6, h7, h8⟩
          exact ⟨x, y, h1, h2, h5, h6, h3, h4, h7, h8⟩
        · rintro ⟨x, y, h1, h2, h5, h6, h3, h4, h7, h8⟩
          exact ⟨⟨x, h1, h2, h3, h4⟩, y, h5, h6, h7, h8⟩

/-- R44: a FOLLOW fence of an active tracker is FIXED on the clamped rectangle about its position. -/
theorem fencePasses_follow_active {s : State} {p : Pen} {hx hy : Nat} (p0 p1 : Point)
    (hf : (s.pen p).record.fence = .follow hx hy) (ht : (s.tracker p).state ≠ .off)
    (hl : (s.tracker p).position.Law) :
    s.fencePasses p p0 p1 = boxMeets p0 p1
      ((s.tracker p).position.x - hx) (min 4095 ((s.tracker p).position.x + hx))
      ((s.tracker p).position.y - hy) (min 4095 ((s.tracker p).position.y + hy)) := by
  obtain ⟨hlx, hly⟩ := hl
  simp [State.fencePasses, hf, Tracker.active, ht, clampCoord_sub hlx, clampCoord_sub hly, clampCoord_add]

/-- Settles O15: two boxes share a point exactly when their ranges meet on each axis. -/
theorem fenceSharesAPointWithTheBox : Obligations.FenceSharesAPointWithTheBox := by
  unfold Obligations.FenceSharesAPointWithTheBox
  intro share s p p0 p1
  refine ⟨fun hf => ?none, fun xmin xmax ymin ymax hf hx hy => ?fixed, fun hx hy hf ht => ?followOff,
    fun hx hy hf ht hl => ?followActive⟩
  case none => simp [State.fencePasses, hf]
  case fixed =>
    have passes : s.fencePasses p p0 p1 = boxMeets p0 p1 xmin xmax ymin ymax := by
      simp [State.fencePasses, hf]
    rw [passes]
    exact boxMeets_iff_sharesPoint p0 p1 hx hy
  case followOff => simp [State.fencePasses, hf, Tracker.active, ht]
  case followActive =>
    rw [fencePasses_follow_active p0 p1 hf ht hl]
    obtain ⟨hlx, hly⟩ := hl
    exact boxMeets_iff_sharesPoint p0 p1 (by omega) (by omega)

/-! ### The intensity sent (R40) -/

/-- Settles O13: along the kinds of image, and for a MENU image along the places of its button. -/
theorem intensityIsSetByTheFirstRow : Obligations.IntensityIsSetByTheFirstRow := by
  intro s seg i _ img blink
  by_cases hi : i = 0
  · subst hi; simp
  rw [if_neg hi]
  cases h : (s.image seg).kind with
  | unused => rw [State.sentIntensity_unused h, if_pos (.inr rfl)]
  | drawing drag bound =>
    have hseg : seg ≠ 0 := s.segment_ne_zero_of_used (by simp [h])
    rw [State.sentIntensity_drawing h hi]
    simp [hseg, State.displayIntensity, State.echoed_iff, img, blink]
  | menu n k =>
    have hseg : seg ≠ 0 := s.segment_ne_zero_of_used (by simp [h])
    have row2 : (∃ n' k', SegKind.menu n k = .menu n' k' ∧ ¬ ShownOnTop s n' k' ∧ ¬ ShownBelow s n' k') ↔
        s.menu.shown n k = .hidden := by simp [shown_eq_hidden_iff]
    have row4 : (∃ n' k', SegKind.menu n k = .menu n' k' ∧ ShownBelow s n' k') ↔ s.menu.shown n k = .belowTop := by
      simp [shown_eq_belowTop_iff]
    rw [State.sentIntensity_menu h hi]
    simp only [row2, row4]
    cases hp : s.menu.shown n k with
    | hidden => simp [hseg]
    | belowTop => simp [hseg, img]
    | onTop =>
      have row6 := menuItem_toggle_iff (s := s) (show s.menu.shown n k ≠ .hidden by simp [hp])
      simp [hseg, State.displayIntensity, State.echoed_iff, row6, img, blink]

/-! ### The mask of a drawing order (R42) -/

/-- R42 tests 3 and 7. -/
theorem entryPickable_iff (s : State) (seg : Nat) :
    s.entryPickable seg = true ↔ ((s.image seg).kind ≠ .unused ∧ (s.image seg).detectable = true) ∧
      ∀ n k, (s.image seg).kind = .menu n k → ShownOnTop s n k := by
  unfold State.entryPickable
  cases h : (s.image seg).kind with
  | unused => simp
  | drawing drag bound => simp
  | menu n k => simp [shown_eq_onTop_iff]

/-- R42: the seven tests of an order from `p0` to `p1` at its passage, with the intensity sent as R40 decides it.
`lit` is false for a beam-off STEP. -/
def SevenTests (s : State) (p : Pen) (w : Word) (lit : Bool) (p0 p1 : Point) : Prop :=
  let seg := s.beam.segment
  let img := s.image seg
  let sent := s.sentIntensity seg (field w 24 3)
  ((s.pen p).record.mode = .press ∨ (s.pen p).record.mode = .continuous ∨ (s.pen p).record.mode = .region) ∧
  (lit = true ∧ 1 ≤ seg ∧ seg ≤ 1023) ∧
  (img.kind ≠ .unused ∧ img.detectable = true) ∧
  (s.pen p).record.classes.getLsbD img.cls = true ∧
  (1 ≤ sent ∧ sent ≤ 7) ∧
  s.fencePasses p p0 p1 = true ∧
  ∀ n k, img.kind = .menu n k → ShownOnTop s n k

theorem drawnEntry_mask_iff_sevenTests {s : State} (hseg : s.beam.segment ≤ 1023) (p : Pen) (kind : EntryKind)
    (w : Word) (lit : Bool) (p0 p1 : Point) :
    (s.drawnEntry kind w lit p0 p1).mask.get p = true ↔ SevenTests s p w lit p0 p1 := by
  have hsent := s.sentIntensity_le s.beam.segment (orderIntensity_le w)
  rw [State.drawnEntry_mask_get, State.eligible_iff, Mode.picks_iff, entryPickable_iff]
  simp only [SevenTests, ← Nat.one_le_iff_ne_zero, show field w 24 3 = orderIntensity w from rfl, hseg, hsent,
    and_true]
  tauto

/-- R3: the held word passes when the Flight List has room. -/
theorem Waits.passHeld {s : State} {k : WordKind} {w : Word} (h : Waits s k w) (pass : Word → State) :
    s.passHeld k pass = pass w := by
  obtain ⟨held, kind, room⟩ := h
  simp [State.passHeld, held, kind, State.flightHasRoom, Config.flightPlaces, room]

section
variable {s : State} {w : Word}

theorem Waits.exec_line (h : Waits s .line w) : exec .line s = .next (s.passLine w) :=
  congrArg _ (h.passHeld s.passLine)

theorem Waits.exec_dot (h : Waits s .dot w) : exec .dot s = .next (s.passDot w) :=
  congrArg _ (h.passHeld s.passDot)

theorem Waits.exec_glyph (h : Waits s .glyph w) : exec .glyph s = .next (s.passGlyph w) :=
  congrArg _ (h.passHeld s.passGlyph)

theorem Waits.exec_step (h : Waits s .step w) : exec .step s = .next (s.passStep w) :=
  congrArg _ (h.passHeld s.passStep)

end

theorem stepEnd_eq (s : State) (w : Word) : s.stepEnd w = stepEnd s w := by
  simp only [State.stepEnd, stepEnd, Point.displaced, clampCoord_eq_toNat]
  rfl

theorem glyphPitch_eq (w : Word) : glyphPitch w =
    if field w 8 2 = 0 then 12 else if field w 8 2 = 1 then 18 else if field w 8 2 = 2 then 24 else 36 := by
  unfold glyphPitch
  split <;> simp_all

theorem glyphEnd_eq (s : State) (w : Word) : s.beam.position.displaced (glyphPitch w) 0 = glyphEnd s w := by
  simp only [glyphEnd, ← glyphPitch_eq, Point.displaced, clampCoord_add]
  rw [show (0 : Int) = (0 : Nat) from rfl, clampCoord_add]
  rfl

/-- A command that appends the entry of a drawing order gives a mask that the seven tests decide. -/
theorem mask_decided_of_passes {s t : State} {c : Instr} {kind : EntryKind} {w : Word} {lit : Bool} {p0 p1 : Point}
    (hseg : s.beam.segment ≤ 1023) (p : Pen) (hexec : exec c s = .next t)
    (hbeam : t.beam = (s.passDrawn kind w lit p0 p1).beam) :
    ∃ t e, exec c s = .next t ∧ t.beam.flight = s.beam.flight ++ [e] ∧
      (e.mask.get p = true ↔ SevenTests s p w lit p0 p1) :=
  ⟨t, s.drawnEntry kind w lit p0 p1, hexec, by rw [hbeam, State.passDrawn_flight],
    drawnEntry_mask_iff_sevenTests hseg p kind w lit p0 p1⟩

/-- Settles O14: each of the four orders appends one entry, whose mask the seven tests decide. -/
theorem eligibilityIsTheSevenTests : Obligations.EligibilityIsTheSevenTests := by
  intro s p w seg img Tests Decides _ hseg
  refine ⟨fun h => ?line, fun h => ?dot, fun h => ?glyph, fun h => ?step⟩
  case line => exact mask_decided_of_passes hseg p h.exec_line (State.countBoundary_beam ..)
  case dot => exact mask_decided_of_passes hseg p h.exec_dot rfl
  case glyph =>
    rw [← glyphEnd_eq]
    exact mask_decided_of_passes hseg p h.exec_glyph rfl
  case step =>
    rw [← stepEnd_eq]
    exact mask_decided_of_passes hseg p h.exec_step (State.countBoundary_beam ..)

end Sys2Proof.Stated
end

section
/-! The crossing test (R116): the sign of the product, against the height of the edge, says on which side of the
test point the crossing abscissa lies. -/

namespace Sys2Proof.Machine

open Sys2Proof.Stated

/-- R116: over the height of the edge, the product is the crossing abscissa less that of the test point. -/
theorem crossProduct_div_height (p : Point) {p0 p1 : Point} (hy : p0.y ≠ p1.y) :
    (crossProduct p p0 p1 : ℚ) / ((p1.y : ℚ) - p0.y) =
      (p0.x : ℚ) + ((p.y : ℚ) - p0.y) * ((p1.x : ℚ) - p0.x) / ((p1.y : ℚ) - p0.y) - p.x := by
  have height_ne : (p1.y : ℚ) - p0.y ≠ 0 := sub_ne_zero.mpr (Nat.cast_injective.ne hy.symm)
  simp only [crossProduct]
  push_cast
  field_simp
  ring

theorem crosses_iff_div_pos (p : Point) {p0 p1 : Point} (hy : p0.y ≠ p1.y) :
    Crosses p p0 p1 ↔ 0 < (crossProduct p p0 p1 : ℚ) / ((p1.y : ℚ) - p0.y) := by
  rw [crossProduct_div_height p hy, sub_pos, Crosses]

/-- R116: the sign test of an upward edge, whose height is positive. -/
theorem crosses_iff_of_upward (p : Point) {p0 p1 : Point} (up : p0.y < p1.y) :
    Crosses p p0 p1 ↔ 0 < crossProduct p p0 p1 := by
  have height_pos : 0 < (p1.y : ℚ) - p0.y := sub_pos.mpr (Nat.cast_lt.mpr up)
  rw [crosses_iff_div_pos p up.ne, div_pos_iff_of_pos_right height_pos, Int.cast_pos]

/-- R116: the sign test of a downward edge, whose height is negative. -/
theorem crosses_iff_of_downward (p : Point) {p0 p1 : Point} (down : p1.y < p0.y) :
    Crosses p p0 p1 ↔ crossProduct p p0 p1 < 0 := by
  have height_neg : (p1.y : ℚ) - p0.y < 0 := sub_neg.mpr (Nat.cast_lt.mpr down)
  rw [crosses_iff_div_pos p down.ne', lt_div_iff_of_neg height_neg, zero_mul, Int.cast_lt_zero]

open Classical in
/-- R116: the sign test of an edge gives the comparison of its abscissa, whichever way the edge runs. -/
theorem edgeCrossing_eq (p p0 p1 : Point) :
    edgeCrossing p p0 p1 =
      if p0.y ≤ p.y ∧ p.y < p1.y ∧ Crosses p p0 p1 then 1
      else if p1.y ≤ p.y ∧ p.y < p0.y ∧ Crosses p p0 p1 then -1 else 0 := by
  by_cases up : p0.y ≤ p.y ∧ p.y < p1.y
  · have not_down : ¬ p.y < p0.y := by omega
    simp [edgeCrossing, up, not_down, crosses_iff_of_upward p (up.1.trans_lt up.2)]
  by_cases down : p1.y ≤ p.y ∧ p.y < p0.y
  · have not_up : ¬ p0.y ≤ p.y := by omega
    simp [edgeCrossing, down, not_up, crosses_iff_of_downward p (down.1.trans_lt down.2)]
  · rw [edgeCrossing, if_neg up, if_neg down, if_neg fun ⟨low, high, _⟩ => up ⟨low, high⟩,
      if_neg fun ⟨low, high, _⟩ => down ⟨low, high⟩]

/-- Settles O12, from the agreement for an edge: the reverse field negates both sides alike. -/
theorem crossingTestIsExact : Obligations.CrossingTestIsExact := by
  intro p p0 p1 reverse
  rw [contribution, crossing, edgeCrossing_eq]

end Sys2Proof.Machine
end

section
/-! Supervision and Faults (11): what a fault leaves in the fault record and the Notice Queue, and what FRAME TIMEOUT
leaves in the frame timer. -/

namespace Sys2Proof.Machine

/-! ### Faults (R174) -/

/-- R145: the queue has 32 entries, and a FAULT notice may take the last one. -/
theorem State.faultRoom_iff (s : State) : s.faultRoom = true ↔ s.notices.queue.length < 32 := by
  simp [State.faultRoom, State.freeEntries, Config.queueEntries]

theorem State.not_faultRoom_iff (s : State) : s.faultRoom = false ↔ 32 ≤ s.notices.queue.length := by
  rw [← Bool.not_eq_true, State.faultRoom_iff, not_lt]

/-- R174 step 1: the bit of a kind is the power of 2 of its code. -/
theorem stickyWith_eq_or_ofNat (sticky : BitVec 6) (kind : FaultKind) :
    stickyWith sticky kind = sticky ||| BitVec.ofNat 6 (2 ^ faultCode kind) := by
  cases kind <;> rfl

/-- R174 step 2: a first fault, once recorded, stays. -/
theorem firstWith_eq_ite (first : Option (FaultKind × Word)) (kind : FaultKind) (context : Word) :
    firstWith first kind context = if first = none then some (kind, context) else first := by
  cases first with
  | none => rfl
  | some f => rfl

/-- Settles O39, by the room that R174 step 3 asks for. -/
theorem faultIsRecorded : Obligations.FaultIsRecorded := by
  intro s kind context code sticky first
  have code_eq : code = faultCode kind := by cases kind <;> rfl
  have sticky_eq : stickyWith s.supervisor.sticky kind = sticky := by
    simp only [sticky, code_eq, stickyWith_eq_or_ofNat]
  have first_eq : firstWith s.supervisor.first kind context = first := firstWith_eq_ite ..
  have is_first : s.supervisor.first.isNone = decide (s.supervisor.first = none) := by
    cases s.supervisor.first with
    | none => rfl
    | some f => rfl
  refine ⟨fun free => ?room, fun full => ?full⟩
  case room =>
    rw [State.raiseFault_room s kind context (s.faultRoom_iff.2 free), sticky_eq, first_eq, is_first,
      show onlyChannel 0 = 1#4 from rfl]
  case full =>
    rw [State.raiseFault_full s kind context (s.not_faultRoom_iff.2 full), sticky_eq, first_eq]

/-! ### The frame timer (R170) -/

/-- R170: the timer after FRAME TIMEOUT, by its state and the setting carried. -/
theorem State.orderFrameTimeout_eq (s : State) (ctrl : Word) :
    s.orderFrameTimeout ctrl = { s with supervisor := { s.supervisor with
      setting := field (ctrlArg ctrl) 0 8
      timer := if s.supervisor.timer = .stalled then .stalled else timerOfSetting (field (ctrlArg ctrl) 0 8) } } := by
  unfold State.orderFrameTimeout
  cases s.supervisor.timer with
  | off => rfl
  | running ms => rfl
  | stalled => rfl

/-- Settles O51: the CTRL word acts at its arrival, on a timer that is STALLED or takes the setting carried. -/
theorem frameTimeoutSetsTheTimer : Obligations.FrameTimeoutSetsTheTimer := by
  intro s arg listens
  have acts : s.arriveOrder .frameTimeout arg [] = s.orderFrameTimeout (ctrlWord 0x72 0 arg) :=
    listens.arriveOrder_acts .frameTimeout arg [] (by decide) rfl
  have timeout_ms (setting : Nat) :
      timerOfSetting setting = if setting = 0 then .off else .running (10 * setting) := by
    rw [timerOfSetting, Config.msPerStep, Nat.mul_comm]
  calc exec (.frameTimeout arg) s
      = .next (s.arriveOrder .frameTimeout arg []) := rfl
    _ = .next (s.orderFrameTimeout (ctrlWord 0x72 0 arg)) := by rw [acts]
    _ = _ := by rw [State.orderFrameTimeout_eq, ctrlArg_ctrlWord, timeout_ms]

end Sys2Proof.Machine
end

section
/-! A law that every step keeps. `ActionsKeep` names the actions that the commands are made of; a law that each of
them keeps is kept by every step, which is shown once here. The laws of the Control Decoder and the Supervisor read
what these actions share, and go their own way. -/

namespace Sys2Proof.Machine

/-! ### The laws of the parts -/

/-- R5, R9, R12, R13: the Beam Follower's part of `FlightLaw`. -/
def BeamFollower.Law (b : BeamFollower) : Prop :=
  b.position.Law ∧ b.segment ≤ 1023 ∧ b.element ≤ 4095 ∧ b.flight.length ≤ 8 ∧ (∀ e ∈ b.flight, e.Law) ∧
    ∀ e ∈ b.afterglow, e.Law

/-- R127, R129, log 16: the Menu Unit's part of `MenuLaw` and `TableLaw`. -/
def MenuUnit.Lawful (u : MenuUnit) : Prop :=
  (u.stack.length ≤ 6 ∧ u.stack.Nodup ∧ ∀ n ∈ u.stack, n ≤ 31) ∧
    (∀ n, (u.page n).Law ∧ ∀ i ∈ (u.page n).items, i.channel ≤ 3 ∧ ∀ t, i.action = .descend t → t ≤ 31) ∧
    Table.wf PageRecord.blank u.pages = true

/-- R119, log 16: one pen's test in `WindingLaw` and `TableLaw`. -/
def RegionTest.Lawful (t : RegionTest) : Prop :=
  (∀ r, -15 ≤ t.counter r ∧ t.counter r ≤ 15) ∧ Table.wf 0 t.counters = true ∧ Table.wf false t.saturated = true

theorem State.flightLaw_iff (s : State) : s.FlightLaw ↔ s.beam.Law ∧ ∀ d ∈ s.injection, d.point.Law := by
  unfold State.FlightLaw BeamFollower.Law
  tauto

theorem State.TrackerLaw.beam {s : State} (h : s.TrackerLaw) : s.beam.Law := (s.flightLaw_iff.1 h.1).1

theorem State.TrackerLaw.dots {s : State} (h : s.TrackerLaw) : ∀ d ∈ s.injection, d.point.Law :=
  (s.flightLaw_iff.1 h.1).2

/-- The actions that the commands are made of keep `P`. An action is given with what its callers have checked. Where a
point comes from the state, it is lawful when the state's points are. -/
structure ActionsKeep (P : State → Prop) : Prop where
  others : ∀ (s : State) l d v q n, P s →
    P { s with link := l, decoder := d, supervisor := v, pending := q, draws := n }
  powerOn : P State.reset
  resetAll : ∀ s : State, P s → P s.resetAll
  raiseFault : ∀ (s : State) k c, P s → P (s.raiseFault k c)
  fixCrosses : ∀ s : State, P s → P s.fixCrosses
  beam : ∀ (s : State) b, (s.TrackerLaw → b.Law) → P s → P { s with beam := b }
  injection : ∀ (s : State) l, (∀ d ∈ l, d ∈ s.injection) → P s → P { s with injection := l }
  segments : ∀ (s : State) t, (Table.wf SegEntry.blank s.segments = true → Table.wf SegEntry.blank t = true) →
    P s → P { s with segments := t }
  records : ∀ (s : State) t,
    (Table.wf RegionRecord.blank s.regions.records = true → Table.wf RegionRecord.blank t = true) →
    P s → P { s with regions := { s.regions with records := t } }
  rewrite : ∀ (s : State) r, r.echo = s.rewrite.echo → P s → P { s with rewrite := r }
  channels : ∀ (s : State) u, u.queue = s.notices.queue → u.lru = s.notices.lru →
    (Table.wf 0 s.notices.levels = true → Table.wf 0 u.levels = true) → P s → P { s with notices := u }
  menu : ∀ (s : State) m, (s.menu.Lawful → m.Lawful) →
    (m.owner = none ∨ m.owner = s.menu.owner ∧ m.stack = s.menu.stack) → P s → P { s with menu := m }
  forceItem : ∀ (s t : State) n k, s.entryFree = true → s.forceItem n k = some t → P s → P t
  reply : ∀ (s : State) r c, s.entryFree = true → P s → P (s.enterNotice r none (.reply c))
  changeMode : ∀ (s : State) p r, r.Law → P s → P (s.changeMode p r)
  setFence : ∀ (s : State) p f, P s → P (s.setFence p f)
  clearExclusions : ∀ (s : State) p, P s → P (s.setPen p { s.pen p with exclusions := [] })
  setTrack : ∀ (s : State) p point pitch coast, (s.pen p).record.mode ≠ .off → point.Law → 2 ≤ pitch → pitch ≤ 64 →
    1 ≤ coast → coast ≤ 15 → P s → P (s.setTrack p point pitch coast)
  turnTrackerOff : ∀ (s : State) p, P s → P (s.turnTrackerOff p)
  countBoundary : ∀ (s : State) seg p0 p1, P s → P (s.countBoundary seg p0 p1)
  regionFramePassage : ∀ (s : State) p, P s → P (s.regionFramePassage p)
  menuFramePassage : ∀ s : State, P s → P s.menuFramePassage
  penFrameClose : ∀ (s : State) p, P s → P (s.penFrameClose p)
  trackerFrameClose : ∀ (s : State) p, P s → P (s.trackerFrameClose p)
  hit : ∀ (s : State) p key strike, (s.TrackerLaw → strike.Law) → P s → P (s.hit p key strike)
  crossHit : ∀ (s : State) p arm k, P s → P (s.crossHit p arm k)
  penTipDown : ∀ (s : State) p, P s → P (s.penTipDown p)
  penTipUp : ∀ (s : State) p, P s → P (s.penTipUp p)
  trackerTipUp : ∀ (s : State) p, P s → P (s.trackerTipUp p)
  penExpiry : ∀ (s : State) p, P s → P (s.penExpiry p)
  trackerExpiry : ∀ (s : State) p, P s → P (s.trackerExpiry p)
  accepts : ∀ (s : State) n rest, s.notices.queue = n :: rest → n.accepted + 1 < n.length → P s →
    P { s with notices := { s.notices with queue := { n with accepted := n.accepted + 1 } :: rest } }
  frees : ∀ (s : State) n rest, s.notices.queue = n :: rest → P s →
    P { s with notices := { s.notices with queue := rest } }
  deliver : ∀ (s : State) p o, s.entryFree = true → (s.pen p).attempt = .holding o → P s → P (s.deliver p o)
  grantTrack : ∀ (s : State) p, s.entryFree = true → P s → P (s.grantTrack p)
  grantPosition : ∀ (s : State) p, s.entryFree = true → s.positionQueued p = false → P s → P (s.grantPosition p)
  grantIdleReturn : ∀ s : State, s.entryFree = true → P s → P s.grantIdleReturn

/-! ### Values that the words of an order give -/

theorem field_lt {n : Nat} (w : BitVec n) (lo len : Nat) : field w lo len < 2 ^ len := (w.extractLsb' lo len).isLt

theorem dataPoint_law (w : Word) : (dataPoint w).Law := by
  have hx := field_lt w 16 12
  have hy := field_lt w 0 12
  exact ⟨by simp only [dataPoint]; omega, by simp only [dataPoint]; omega⟩

theorem orderPoint_law (w : Word) : (orderPoint w).Law := by
  have hx := field_lt w 12 12
  have hy := field_lt w 0 12
  exact ⟨by simp only [orderPoint]; omega, by simp only [orderPoint]; omega⟩

theorem Point.displaced_law (p : Point) (dx dy : Int) : (p.displaced dx dy).Law := p.displaced_le dx dy

/-- R53: a record that PEN MODE accepts lies in its ranges. -/
theorem decodeMode_law (fence : Fence) (arg : Arg) (w : Word) (h : modeInRange (decodeMode fence arg w) = true) :
    (decodeMode fence arg w).Law := by
  have hspan := field_lt w 0 6
  have hchannel := field_lt arg 0 2
  simp only [modeInRange, Bool.and_eq_true, decide_eq_true_eq] at h
  obtain ⟨⟨⟨⟨hw1, hw8⟩, hc1⟩, hcw⟩, hs⟩ := h
  exact ⟨hw1, hw8, hc1, hcw, hs, by simp only [decodeMode]; omega, by simp only [decodeMode]; omega⟩

/-- R127, R179: an item word names a channel and, for DESCEND, a page that exist. -/
theorem decodeItem_lawful {w : Word} {i : Item} (h : decodeItem w = some i) :
    i.channel ≤ 3 ∧ ∀ t, i.action = .descend t → t ≤ 31 := by
  have hchannel := field_lt w 24 2
  have hpage := field_lt w 0 5
  simp only [decodeItem, Option.map_eq_some_iff] at h
  obtain ⟨action, haction, rfl⟩ := h
  refine ⟨by simp only; omega, fun t ht => ?_⟩
  simp only at ht
  subst ht
  unfold decodeAction at haction
  split at haction
  · cases haction; omega
  · cases haction
  · simp at haction
  · simp at haction
  · cases haction

theorem decodeItems_lawful {ws : List Word} {items : List Item} (h : decodeItems ws = some items) :
    ∀ i ∈ items, i.channel ≤ 3 ∧ ∀ t, i.action = .descend t → t ≤ 31 := by
  induction ws generalizing items with
  | nil => cases h; simp
  | cons w ws ih =>
    simp only [decodeItems] at h
    split at h
    · next item items hitem hitems =>
      cases h
      exact List.forall_mem_cons.2 ⟨decodeItem_lawful hitem, ih hitems⟩
    · cases h

/-- R127, R128: the Page Table after one record is replaced by a lawful one. -/
theorem MenuUnit.Lawful.writePage {u : MenuUnit} (h : u.Lawful) (n : Nat) {r : PageRecord} (hr : r.Law)
    (hi : ∀ i ∈ r.items, i.channel ≤ 3 ∧ ∀ t, i.action = .descend t → t ≤ 31) :
    MenuUnit.Lawful { u with pages := Table.write PageRecord.blank u.pages n r } := by
  obtain ⟨hstack, hpages, hwf⟩ := h
  refine ⟨hstack, fun m => ?_, Table.wf_write _ _ _ hwf⟩
  have hread : MenuUnit.page { u with pages := Table.write PageRecord.blank u.pages n r } m =
      if m = n then r else u.page m := by
    unfold MenuUnit.page
    split
    · next heq => rw [heq, Table.read_write_same]
    · next hne => rw [Table.read_write_other _ _ hne]
  rw [hread]
  split
  · exact ⟨hr, hi⟩
  · exact hpages m

/-! ### Entries of the passages -/

theorem BeamFollower.Law.append {b : BeamFollower} (h : b.Law) (room : b.flight.length < 8) {e : Entry} (he : e.Law)
    {position : Point} (hp : position.Law) {segment element : Nat} (hs : segment ≤ 1023) (hn : element ≤ 4095) :
    BeamFollower.Law { b with position := position, segment := segment, element := element
                              flight := b.flight ++ [e] } := by
  obtain ⟨-, -, -, -, hflight, hglow⟩ := h
  refine ⟨hp, hs, hn, by simp; omega, fun x hx => ?_, hglow⟩
  rcases List.mem_append.1 hx with hx | hx
  · exact hflight x hx
  · rw [List.mem_singleton.1 hx]; exact he

/-- R39: an entry of origin STREAM with an empty mask. -/
theorem plainEntry_law (kind : EntryKind) {key : Key} (hk : key.segment ≤ 1023)
    (hn : ∀ n, key.element = .ordinal n → n ≤ 4095) {endPt : Point} (he : endPt.Law) :
    (plainEntry kind key endPt).Law := ⟨he, hk, hn, fun _ => rfl⟩

theorem State.keyElement_le (s : State) (seg : Nat) {n : Nat} (h : n ≤ 4095) :
    ∀ k, s.keyElement seg n = .ordinal k → k ≤ 4095 := by
  intro k hk
  unfold State.keyElement at hk
  split at hk
  · cases hk; exact h
  all_goals
    split at hk
    · cases hk
    · cases hk; exact h

theorem nextElement_le (n : Nat) : nextElement n ≤ 4095 := Nat.min_le_right _ _

theorem CrossDot.entry_law {d : CrossDot} (h : d.point.Law) : d.entry.Law :=
  ⟨h, Nat.zero_le _, fun n hn => by cases hn; omega, fun _ => rfl⟩

theorem State.flightHasRoom_iff (s : State) : s.flightHasRoom = true ↔ s.beam.flight.length < 8 := by
  exact decide_eq_true_iff

/-! ### What a strike and a frame close can do -/

theorem strikeTarget_mem {l : List Entry} {e : Entry} (h : strikeTarget l = some e) (p : Pen) :
    e.withStruck p ∈ strikeList p l := by
  induction l with
  | nil => cases h
  | cons x l ih =>
    unfold strikeTarget at h
    unfold strikeList
    split at h <;> rename_i hx
    · cases h; simp [hx]
    · simp [hx, ih h]

theorem strikeList_law {l : List Entry} (h : ∀ x ∈ l, Entry.Law x) (p : Pen) :
    (strikeList p l).length = l.length ∧ ∀ x ∈ strikeList p l, Entry.Law x := by
  induction l with
  | nil => exact ⟨rfl, h⟩
  | cons x l ih =>
    rw [List.forall_mem_cons] at h
    obtain ⟨hlen, hlaw⟩ := ih h.2
    unfold strikeList
    split
    · exact ⟨rfl, List.forall_mem_cons.2 ⟨h.1, h.2⟩⟩
    · exact ⟨by simp [hlen], List.forall_mem_cons.2 ⟨h.1, hlaw⟩⟩

/-- R16, R17: a strike does nothing, or sets the struck flag of one entry and delivers it. -/
theorem State.takeStrike_cases (s : State) (p : Pen) :
    s.takeStrike p = s ∨
      ∃ b e, (s.beam.Law → b.Law) ∧ (b.Law → e.Law) ∧
        s.takeStrike p = State.deliverStrike { s with beam := b } p e := by
  unfold State.takeStrike
  split
  · next e he =>
    split
    · exact .inl rfl
    · refine .inr ⟨_, e, fun ⟨h1, h2, h3, h4, h5, h6⟩ => ?_, fun ⟨_, _, _, _, h5, _⟩ => ?_, rfl⟩
      · obtain ⟨hlen, hlaw⟩ := strikeList_law h5 p
        exact ⟨h1, h2, h3, hlen.trans_le h4, hlaw, h6⟩
      · exact (show (e.withStruck p).Law from h5 _ (strikeTarget_mem he p))
  · split
    · next e he =>
      split
      · exact .inl rfl
      · refine .inr ⟨_, e, fun ⟨h1, h2, h3, h4, h5, h6⟩ => ?_, fun ⟨_, _, _, _, _, h6⟩ =>
          (show (e.withStruck p).Law from h6 _ rfl), rfl⟩
        exact ⟨h1, h2, h3, h4, h5, fun x hx => by cases hx; exact h6 e he⟩
    · exact .inl rfl

/-- A list of actions keeps what each of them keeps. -/
theorem foldl_keeps_law {α β : Type} {P : α → Prop} (f : α → β → α) (h : ∀ a b, P a → P (f a b)) (l : List β) :
    ∀ a, P a → P (l.foldl f a) := by
  induction l with
  | nil => exact fun a ha => ha
  | cons b l ih => exact fun a ha => ih _ (h a b ha)

namespace ActionsKeep

variable {P : State → Prop} (K : ActionsKeep P)
include K

/-! ### Parts that the laws do not read -/

theorem link (s : State) (l : LinkInterface) (h : P s) : P { s with link := l } :=
  K.others s l s.decoder s.supervisor s.pending s.draws h

theorem decoder (s : State) (d : ControlDecoder) (h : P s) : P { s with decoder := d } :=
  K.others s s.link d s.supervisor s.pending s.draws h

theorem supervisor (s : State) (v : Supervisor) (h : P s) : P { s with supervisor := v } :=
  K.others s s.link s.decoder v s.pending s.draws h

theorem model (s : State) (q : List Instr) (n : Nat) (h : P s) : P { s with pending := q, draws := n } :=
  K.others s s.link s.decoder s.supervisor q n h

/-! ### Control orders (10) -/

theorem setSegEntry (s : State) (n : Nat) (e : SegEntry) (h : P s) : P (s.setSegEntry n e) :=
  K.segments s _ (fun hwf => Table.wf_write _ _ _ hwf) h

theorem writeImage (s : State) (now : Bool) (img : Image) (h : P s) : P (s.writeImage now img) :=
  K.decoder _ _ (K.setSegEntry s _ _ h)

theorem loadImages (now : Bool) (ctrl : Word) (imgs : List Image) :
    ∀ s : State, P s → P (State.loadImages now ctrl imgs s) := by
  induction imgs with
  | nil => exact fun s h => h
  | cons img rest ih =>
    intro s h
    unfold State.loadImages
    split
    · exact K.raiseFault s _ _ h
    · exact ih _ (K.writeImage s now img h)

theorem orderSegLoad (s : State) (now : Bool) (ctrl : Word) (data : List Word) (h : P s) :
    P (s.orderSegLoad now ctrl data) := by
  unfold State.orderSegLoad
  split
  · exact K.loadImages now ctrl _ s h
  · exact K.raiseFault s _ _ h

theorem orderSegShow (s : State) (ctrl run : Word) (h : P s) : P (s.orderSegShow ctrl run) := by
  unfold State.orderSegShow
  dsimp only
  split
  · exact foldl_keeps_law _ (fun a n ha => K.setSegEntry a n _ ha) _ s h
  · exact K.raiseFault s _ _ h

theorem orderRegionLoad (s : State) (ctrl record : Word) (h : P s) : P (s.orderRegionLoad ctrl record) := by
  unfold State.orderRegionLoad
  dsimp only
  split
  · exact K.raiseFault s _ _ h
  · exact K.records s _ (fun hwf => Table.wf_write _ _ _ hwf) h

/-- R128: a PAGE LOAD with as many items as it names. -/
theorem orderPageLoad (s : State) (ctrl : Word) (data : List Word)
    (hn : data.length = if pageLoadValid (ctrlArg ctrl) then pageLoadCount (ctrlArg ctrl) else 0) (h : P s) :
    P (s.orderPageLoad ctrl data) := by
  have page (n : Nat) (r : PageRecord) (hr : r.Law)
      (hi : ∀ i ∈ r.items, i.channel ≤ 3 ∧ ∀ t, i.action = .descend t → t ≤ 31) : P (s.setPage n r) :=
    K.menu s _ (fun hm => hm.writePage n hr hi) (.inr ⟨rfl, rfl⟩) h
  unfold State.orderPageLoad
  dsimp only
  split
  · next hvalid =>
    rw [if_pos hvalid] at hn
    split
    · exact K.raiseFault s _ _ h
    · next hcount =>
      simp only [Config.itemsPerPage] at hcount
      split
      · next items hitems =>
        have hlen := decodeItems_length hitems
        refine page _ _ ⟨fun _ => ?_, by simp⟩ (decodeItems_lawful hitems)
        simp only
        omega
      · exact K.raiseFault s _ _ h
  · exact page _ _ ⟨by simp [PageRecord.blank], fun _ => rfl⟩ (by simp [PageRecord.blank])

theorem menuUnlocked (s : State) (stack : List Nat) (hl : stack.length ≤ 1) (hn : ∀ n ∈ stack, n ≤ 31) (h : P s) :
    P { s with menu := { s.menu.unlock with stack := stack } } := by
  refine K.menu s _ (fun ⟨_, hpages, hwf⟩ => ⟨⟨by simp only; omega, ?_, hn⟩, hpages, hwf⟩) (.inl rfl) h
  match stack, hl with
  | [], _ => exact List.nodup_nil
  | [n], _ => exact List.nodup_singleton n

theorem effectForceItem (s : State) (ctrl : Word) (free : s.entryFree = true) (h : P s) :
    P (s.effectForceItem ctrl) := by
  unfold State.effectForceItem
  split
  · next t ht => exact K.forceItem s t _ _ free ht h
  · exact K.raiseFault s _ _ h

theorem answerQuery (s : State) (arg : Arg) (free : s.entryFree = true) (h : P s) : P (s.answerQuery arg) := by
  unfold State.answerQuery
  split
  · refine K.reply _ _ _ ?_ ?_ <;> unfold State.afterReply <;> split
    · exact free
    · exact free
    · exact K.supervisor s _ h
    · exact h
  · exact h

theorem effectHeld (s : State) (ctrl : Word) (free : s.entryFree = true) (h : P s) : P (s.effectHeld ctrl) := by
  unfold State.effectHeld
  split
  · exact K.effectForceItem s ctrl free h
  · exact K.answerQuery s _ free h

theorem claimEntry (s : State) (ctrl : Word) (h : P s) : P (s.claimEntry ctrl) := by
  unfold State.claimEntry
  split
  · next room =>
    simp only [State.hasRoom, Bool.and_eq_true] at room
    exact K.effectHeld s ctrl room.1 h
  · exact K.decoder s _ h

theorem orderTrackSet (s : State) (ctrl point : Word) (h : P s) : P (s.orderTrackSet ctrl point) := by
  unfold State.orderTrackSet
  dsimp only
  split
  · next hok =>
    obtain ⟨hmode, hlo, hhi, hcoast⟩ := hok
    have := field_lt (ctrlArg ctrl) 0 4
    exact K.setTrack s _ _ _ _ hmode (dataPoint_law point) hlo hhi (Nat.one_le_iff_ne_zero.2 hcoast)
      (by simp only [trackCoast]; omega) h
  · exact K.raiseFault s _ _ h

/-- R160: an order with its right data count keeps the law. -/
theorem act (s : State) (o : OrderName) (ctrl : Word) (data : List Word)
    (hn : o.countRight (ctrlArg ctrl) data.length = true) (h : P s) : P (s.act o ctrl data) := by
  have refused (k : FaultKind) : P (s.raiseFault k ctrl) := K.raiseFault s k ctrl h
  cases o with
  | segCursor =>
    simp only [State.act, State.orderSegCursor]
    split
    · exact K.decoder s _ h
    · exact refused _
  | segLoad => exact K.orderSegLoad s false ctrl data h
  | segLoadNow => exact K.orderSegLoad s true ctrl data h
  | segShow => exact K.orderSegShow s ctrl _ h
  | regionLoad => exact K.orderRegionLoad s ctrl _ h
  | pageLoad => exact K.orderPageLoad s ctrl data (by simpa [OrderName.countRight] using hn) h
  | menuRoot =>
    have hpage := field_lt (ctrlArg ctrl) 0 5
    exact K.menuUnlocked s _ (by simp) (by simp; omega) h
  | menuClose => exact K.menuUnlocked s [] (by simp) (by simp) h
  | menuUnlock => exact K.menu s s.menu.unlock (fun hm => hm) (.inl rfl) h
  | menuIdle => exact K.menu s _ (fun hm => hm) (.inr ⟨rfl, rfl⟩) h
  | forceItem =>
    simp only [State.act, State.orderForceItem]
    split
    · exact refused _
    · exact K.claimEntry s ctrl h
  | penMode =>
    simp only [State.act, State.orderPenMode]
    split
    · next hrange => exact K.changeMode s _ _ (decodeMode_law _ _ _ hrange) h
    · exact refused _
  | penFence =>
    simp only [State.act, State.orderPenFence]
    split
    · exact K.setFence s _ _ h
    · exact refused _
  | penClearExclusions => exact K.clearExclusions s _ h
  | trackSet => exact K.orderTrackSet s ctrl _ h
  | trackOff => exact K.turnTrackerOff s _ h
  | blinkRate =>
    simp only [State.act, State.orderBlinkRate]
    split
    · exact refused _
    · exact K.rewrite s _ rfl h
  | channelPresent => exact K.channels s _ rfl rfl (fun hwf => hwf) h
  | channelLevel => exact K.channels s _ rfl rfl (fun hwf => Table.wf_write _ _ _ hwf) h
  | routeMode => exact K.channels s _ rfl rfl (fun hwf => hwf) h
  | keepTables =>
    simp only [State.act, State.orderKeepTables]
    split
    · exact K.decoder s _ h
    · exact refused _
  | resetPart =>
    simp only [State.act, State.orderResetPart]
    split
    · exact K.resetAll s h
    · exact K.decoder s _ h
  | frameTimeout => exact K.supervisor s _ h
  | query =>
    simp only [State.act, State.orderQuery]
    split
    · exact refused _
    · exact K.claimEntry s ctrl h

theorem takeOrder (s : State) (ctrl : Word) (data : List Word) (h : P s) : P (s.takeOrder ctrl data) := by
  unfold State.takeOrder
  split
  · exact K.raiseFault s _ _ h
  · split
    · next hn => exact K.act s _ ctrl data hn h
    · exact K.raiseFault s _ _ h

theorem takeWord (s : State) (w : Word) (h : P s) : P (s.takeWord w) := by
  have held : P (s.hold w) := K.link s _ h
  unfold State.takeWord
  split
  case h_1 =>
    unfold State.takeCtrl
    split
    · exact K.takeOrder s w [] h
    · exact K.decoder s _ h
  case h_2 => exact K.fixCrosses _ held
  all_goals exact held

theorem arrive (s : State) (w : Word) (h : P s) : P (s.arrive w) := by
  unfold State.arrive
  split
  · split
    · unfold State.takeData
      dsimp only
      split
      · exact K.decoder s _ h
      · exact K.takeOrder _ _ _ (K.decoder s _ h)
    · exact K.takeWord s w h
    · exact h
    · exact h
  · exact h

theorem arriveOrder (s : State) (o : OrderName) (arg : Arg) (data : List Word) (h : P s) :
    P (s.arriveOrder o arg data) :=
  foldl_keeps_law _ (fun a w ha => K.arrive a w ha) _ s h

/-! ### Passages (01) -/

/-- R3, R13: a held word and its entry pass, and the beam state moves. -/
theorem passage (s : State) (sent : Word) (e : Entry) (position : Point) (segment element : Nat)
    (room : s.flightHasRoom = true)
    (he : s.beam.Law → e.Law ∧ position.Law ∧ segment ≤ 1023 ∧ element ≤ 4095) (h : P s) :
    P { s.sendHeld sent e with beam := { (s.sendHeld sent e).beam with
      position := position, segment := segment, element := element } } := by
  refine K.beam { s with link := { held := none, downstream := some sent } }
    { s.beam with position := position, segment := segment, element := element, flight := s.beam.flight ++ [e] }
    (fun law => ?_) (K.link s _ h)
  obtain ⟨entry, point, hs, hn⟩ := he law.beam
  exact BeamFollower.Law.append law.beam (s.flightHasRoom_iff.1 room) entry point hs hn

omit K in
theorem passHeld (s : State) (k : WordKind) (pass : Word → State)
    (hp : ∀ w, s.flightHasRoom = true → P (pass w)) (h : P s) : P (s.passHeld k pass) := by
  unfold State.passHeld
  split
  · split
    · next hw => exact hp _ hw.2
    · exact h
  · exact h

theorem passPlain (s : State) (w : Word) (kind : EntryKind) (position : Point) (segment element : Nat)
    (room : s.flightHasRoom = true)
    (ha : s.beam.Law → position.Law ∧ segment ≤ 1023 ∧ element ≤ 4095) (h : P s) :
    P { s.sendHeld w (plainEntry kind ⟨segment, .ordinal element⟩ position) with
      beam := { (s.sendHeld w (plainEntry kind ⟨segment, .ordinal element⟩ position)).beam with
        position := position, segment := segment, element := element } } := by
  refine K.passage s w _ position segment element room (fun law => ?_) h
  obtain ⟨hp, hs, hn⟩ := ha law
  exact ⟨plainEntry_law kind hs (fun n he => by cases he; exact hn) hp, hp, hs, hn⟩

theorem passDrawn (s : State) (kind : EntryKind) (w : Word) (lit : Bool) (p0 p1 : Point) (room : s.flightHasRoom = true)
    (hk : kind = .line ∨ kind = .step ∨ kind = .dot ∨ kind = .glyph) (hp : p1.Law) (h : P s) :
    P (s.passDrawn kind w lit p0 p1) := by
  refine K.passage s _ _ p1 s.beam.segment (nextElement s.beam.element) room
    (fun ⟨_, hs, hn, _⟩ => ⟨⟨hp, hs, s.keyElement_le _ hn, fun hnot => ?_⟩, hp, hs, nextElement_le _⟩) h
  exact absurd ⟨rfl, hk⟩ hnot

theorem passPass (s : State) (w : Word) (room : s.flightHasRoom = true) (h : P s) : P (s.passPass w) :=
  K.passPlain s w .pass s.beam.position s.beam.segment s.beam.element room
    (fun ⟨hp, hs, hn, _⟩ => ⟨hp, hs, hn⟩) h

theorem blockPassage (s : State) (b : PassageBlock) (h : P s) : P (s.blockPassage b) := by
  cases b with
  | regionTest p => exact K.regionFramePassage s p h
  | menuUnit => exact K.menuFramePassage s h

theorem passFrame (s : State) (order : List PassageBlock) (w : Word) (room : s.flightHasRoom = true) (h : P s) :
    P (s.passFrame order w) := by
  have began := K.passPlain s w .frame ⟨0, 0⟩ 0 0 room
    (fun _ => ⟨⟨Nat.zero_le _, Nat.zero_le _⟩, Nat.zero_le _, Nat.zero_le _⟩) h
  have tables := K.rewrite _ s.rewrite.blinkStep
    (by unfold EligibilityRewrite.blinkStep; split <;> rfl)
    (K.segments _ _ (fun hwf => Table.wf_mapAll _ SegEntry.applied hwf) began)
  exact foldl_keeps_law _ K.blockPassage _ _ tables

theorem passCrossDot (s : State) (h : P s) : P s.passCrossDot := by
  unfold State.passCrossDot
  split
  · exact h
  · next d rest hd =>
    split
    · next room =>
      refine K.injection _ rest (fun x hx => ?_) (K.beam _ _ (fun law => ?_) (K.link s _ h))
      · show x ∈ s.injection
        rw [hd]; exact List.mem_cons_of_mem d hx
      · have point : d.point.Law := law.dots d (by show d ∈ s.injection; rw [hd]; exact List.mem_cons_self ..)
        obtain ⟨-, hs, hn, -⟩ := law.beam
        exact BeamFollower.Law.append law.beam (s.flightHasRoom_iff.1 room) (CrossDot.entry_law point) point hs hn
    · exact h

/-! ### Retires, strikes and expiries (01, 11) -/

theorem blockClose (s : State) (b : CloseBlock) (h : P s) : P (s.blockClose b) := by
  cases b with
  | penEngine p => exact K.penFrameClose s p h
  | tracker p => exact K.trackerFrameClose s p h

theorem frameClose (s : State) (order : List CloseBlock) (h : P s) : P (s.frameClose order) :=
  foldl_keeps_law _ K.blockClose _ _ (K.supervisor s _ h)

theorem takeRetire (s : State) (order : List CloseBlock) (h : P s) : P (s.takeRetire order) := by
  unfold State.takeRetire
  split
  · exact K.raiseFault s _ _ h
  · next e rest hf =>
    have popped : P { s with beam := { s.beam with flight := rest } } := by
      refine K.beam s _ (fun law => ?_) h
      obtain ⟨h1, h2, h3, h4, h5, h6⟩ := law.beam
      rw [hf] at h4 h5
      exact ⟨h1, h2, h3, by simp at h4 ⊢; omega, (List.forall_mem_cons.1 h5).2, h6⟩
    have glow : P { s with beam := { s.beam with flight := rest, afterglow := some e } } := by
      refine K.beam s _ (fun law => ?_) h
      obtain ⟨h1, h2, h3, h4, h5, h6⟩ := law.beam
      rw [hf] at h4 h5
      rw [List.forall_mem_cons] at h5
      exact ⟨h1, h2, h3, by simp at h4 ⊢; omega, h5.2, fun x hx => by cases hx; exact h5.1⟩
    have dark : P { s with beam := { s.beam with flight := rest, afterglow := none } } := by
      refine K.beam s _ (fun law => ?_) h
      obtain ⟨h1, h2, h3, h4, h5, h6⟩ := law.beam
      rw [hf] at h4 h5
      exact ⟨h1, h2, h3, by simp at h4 ⊢; omega, (List.forall_mem_cons.1 h5).2, fun x hx => by cases hx⟩
    have retired : P (State.retired { s with beam := { s.beam with flight := rest } } order e) := by
      unfold State.retired
      cases e.kind with
      | seg => exact popped
      | pass => exact popped
      | frame => exact K.frameClose _ order dark
      | move => exact glow
      | line => exact glow
      | step => exact glow
      | dot => exact glow
      | glyph => exact glow
    unfold State.endDrain
    split
    · exact K.resetAll _ retired
    · exact retired

theorem takeStrike (s : State) (p : Pen) (h : P s) : P (s.takeStrike p) := by
  obtain same | ⟨b, e, hb, he, hit⟩ := s.takeStrike_cases p
  · rw [same]; exact h
  · rw [hit]
    have marked : P { s with beam := b } := K.beam s b (fun law => hb law.beam) h
    unfold State.deliverStrike
    split
    · split
      · exact K.hit _ _ _ _ (fun law => (he law.beam).1) marked
      · exact marked
    · split
      · exact K.crossHit _ _ _ _ marked
      · exact marked

theorem expire (s : State) (order : List Pen) (h : P s) : P (s.expire order) := by
  refine foldl_keeps_law _ (fun a b ha => ?_) _ _ (K.raiseFault _ _ _ (K.supervisor s _ h))
  cases b with
  | penEngine p => exact K.penExpiry a p ha
  | tracker p => exact K.trackerExpiry a p ha

theorem tick (s : State) (h : P s) : P s.tick := by
  unfold State.tick
  split
  · split
    · exact K.model _ _ _ (K.expire s _ h)
    · exact K.supervisor s _ h
  · exact h
  · exact h

/-! ### The notice lane and the grants (09) -/

theorem grant (s : State) (c : Claimant) (hc : s.nextGrant = some c) (h : P s) : P (s.grant c) := by
  unfold State.nextGrant at hc
  split at hc
  · next free =>
    have served := List.find?_some hc
    cases c with
    | decoder =>
      simp only [State.grant, State.grantDecoder]
      split
      · exact K.effectHeld _ _ free (K.decoder s _ h)
      all_goals exact h
    | penEngine p =>
      simp only [State.grant, State.grantPen]
      split
      · next o ho =>
        exact K.deliver _ p o free ho (K.channels s _ rfl rfl (fun hwf => hwf) h)
      all_goals exact h
    | track p => exact K.grantTrack s p free h
    | position p =>
      simp only [State.grantable, Bool.and_eq_true, Bool.not_eq_true'] at served
      exact K.grantPosition s p free served.2 h
    | idleReturn => exact K.grantIdleReturn s free h
  · cases hc

theorem grantRound (n : Nat) : ∀ s : State, P s → P (State.grantRound n s) := by
  induction n with
  | zero => exact fun s h => h
  | succ n ih =>
    intro s h
    unfold State.grantRound
    split
    · exact h
    · next c hc => exact ih _ (K.grant s c hc h)

theorem acceptWord (s : State) (h : P s) : P s.acceptWord := by
  unfold State.acceptWord
  split
  · next f hf =>
    unfold State.freeing at hf
    split at hf
    · cases hf
    · next n rest hq =>
      split at hf
      · cases hf
      · cases hf; exact K.grantRound _ _ (K.frees s n rest hq h)
  · next hf =>
    split
    · exact h
    · next n rest hq =>
      have more : n.accepted + 1 < n.length := by
        by_contra hn
        simp [State.freeing, hq, hn] at hf
      exact K.accepts s n rest hq more h

theorem grantAtFreeing (s : State) (c : Claimant) (h : P s) : P (s.grantAtFreeing c) := by
  unfold State.grantAtFreeing
  split
  · split
    · exact K.acceptWord s h
    · exact h
  · exact h

/-! ### Commands and steps -/

omit K in
/-- What holds of the next state that a command names holds of the one that it ends in. -/
theorem of_next {s t : State} (h : P s) (hnext : (.next s : Host.Outcome State Fault Refusal) = .next t) : P t := by
  cases hnext; exact h

theorem execFrame (s t : State) (order : List PassageBlock) (h : P s) (ht : Machine.execFrame order s = .next t) :
    P t := by
  unfold Machine.execFrame at ht
  split at ht
  · exact of_next (passHeld s _ _ (fun w room => K.passFrame s order w room h) h) ht
  · exact of_next h ht

theorem execInternalReset (s t : State) (order : List CloseBlock) (h : P s)
    (ht : Machine.execInternalReset order s = .next t) : P t := by
  unfold Machine.execInternalReset at ht
  split at ht
  · split at ht
    · exact of_next (K.resetAll s h) ht
    · exact of_next (K.takeRetire s order h) ht
    · exact of_next h ht
  · exact of_next h ht

theorem execTip (s t : State) (p : Pen) (h : P s) :
    (execTipDown p s = .next t → P t) ∧ (execTipUp p s = .next t → P t) := by
  unfold execTipDown execTipUp
  constructor <;> intro ht
  · split at ht
    · exact of_next (K.penTipDown s p h) ht
    · exact of_next h ht
  · split at ht
    · exact of_next (K.trackerTipUp _ p (K.penTipUp s p h)) ht
    · exact of_next h ht

theorem execExpiry (s t : State) (order : List Pen) (h : P s) (ht : execFrameTimerExpiry order s = .next t) : P t := by
  unfold execFrameTimerExpiry at ht
  split at ht
  · exact of_next (K.expire s order h) ht
  · exact of_next h ht
  · exact of_next h ht

/-- Every command keeps the law. -/
theorem exec (s t : State) (c : Instr) (h : P s) (ht : Machine.exec c s = .next t) : P t := by
  have order (o : OrderName) (arg : Arg) (data : List Word) : P (s.arriveOrder o arg data) :=
    K.arriveOrder s o arg data h
  have query (subject : Nat) (ch : BitVec 2) (ps : BitVec 10) : P (s.arriveQuery subject ch ps) := order ..
  have held (k : WordKind) (pass : Word → State) (hp : ∀ w, s.flightHasRoom = true → P (pass w)) :
      P (s.passHeld k pass) := passHeld s k pass hp h
  have drawn {kind : EntryKind} (w : Word) (lit : Bool) (p0 p1 : Point) (room : s.flightHasRoom = true)
      (hk : kind = .line ∨ kind = .step ∨ kind = .dot ∨ kind = .glyph) (hp : p1.Law) :
      P (s.passDrawn kind w lit p0 p1) := K.passDrawn s kind w lit p0 p1 room hk hp h
  cases c with
  | powerOn => exact of_next (K.model _ s.pending s.draws K.powerOn) ht
  | linkReset => exact of_next (K.resetAll s h) ht
  | wordArrival w => exact of_next (K.arrive s w h) ht
  | move =>
    refine of_next (held .move _ fun w room => ?_) ht
    refine K.passage s w _ (orderPoint w) s.beam.segment s.beam.element room (fun ⟨_, hs, hn, _⟩ => ?_) h
    exact ⟨plainEntry_law _ hs (fun n he => by cases he; exact hn) (orderPoint_law w), orderPoint_law w, hs, hn⟩
  | line =>
    refine of_next (held .line _ fun w room => K.countBoundary _ _ _ _ ?_) ht
    exact drawn w true _ _ room (by simp) (orderPoint_law w)
  | dot => exact of_next (held .dot _ fun w room => drawn w true _ _ room (by simp) (orderPoint_law w)) ht
  | step =>
    refine of_next (held .step _ fun w room => K.countBoundary _ _ _ _ ?_) ht
    exact drawn w _ _ _ room (by simp) (Point.displaced_law ..)
  | glyph => exact of_next (held .glyph _ fun w room => drawn w true _ _ room (by simp) (Point.displaced_law ..)) ht
  | seg =>
    refine of_next (held .seg _ fun w room => ?_) ht
    have hseg := field_lt w 0 10
    refine K.passPlain s w .seg s.beam.position (segField w) 0 room (fun ⟨hp, _⟩ => ⟨hp, ?_, Nat.zero_le _⟩) h
    simp only [segField]; omega
  | frame blocks => exact K.execFrame s t blocks h ht
  | pass => exact of_next (held .pass _ fun w room => K.passPass s w room h) ht
  | reservedOrder =>
    exact of_next (held .reserved _ fun w room => K.raiseFault _ _ _ (K.passPass s w room h)) ht
  | crossDot => exact of_next (K.passCrossDot s h) ht
  | retire blocks => exact of_next (K.takeRetire s blocks h) ht
  | strike p => exact of_next (K.takeStrike s p h) ht
  | tipDown p => exact (K.execTip s t p h).1 ht
  | tipUp p => exact (K.execTip s t p h).2 ht
  | noticeAccept => exact of_next (K.acceptWord s h) ht
  | penGrant p => exact of_next (K.grantAtFreeing s _ h) ht
  | decoderGrant => exact of_next (K.grantAtFreeing s _ h) ht
  | trackClaimGrant p => exact of_next (K.grantAtFreeing s _ h) ht
  | positionClaimGrant p => exact of_next (K.grantAtFreeing s _ h) ht
  | idleReturnGrant => exact of_next (K.grantAtFreeing s _ h) ht
  | frameTimerExpiry pens => exact K.execExpiry s t pens h ht
  | internalReset blocks => exact K.execInternalReset s t blocks h ht
  | segCursor arg => exact of_next (order .segCursor arg []) ht
  | segLoad arg images => exact of_next (order .segLoad arg (imageWords images)) ht
  | segLoadNow arg images => exact of_next (order .segLoadNow arg (imageWords images)) ht
  | segShow arg run => exact of_next (order .segShow arg [run]) ht
  | regionLoad arg record => exact of_next (order .regionLoad arg [record]) ht
  | pageLoad arg items => exact of_next (order .pageLoad arg items) ht
  | menuRoot arg => exact of_next (order .menuRoot arg []) ht
  | menuClose arg => exact of_next (order .menuClose arg []) ht
  | menuUnlock arg => exact of_next (order .menuUnlock arg []) ht
  | menuIdle arg => exact of_next (order .menuIdle arg []) ht
  | forceItem arg => exact of_next (order .forceItem arg []) ht
  | penMode arg record => exact of_next (order .penMode arg [record]) ht
  | penFence arg w1 w2 => exact of_next (order .penFence arg [w1, w2]) ht
  | penClearExclusions arg => exact of_next (order .penClearExclusions arg []) ht
  | trackSet arg point => exact of_next (order .trackSet arg [point]) ht
  | trackOff arg => exact of_next (order .trackOff arg []) ht
  | blinkRate arg => exact of_next (order .blinkRate arg []) ht
  | channelPresent arg => exact of_next (order .channelPresent arg []) ht
  | channelLevel arg => exact of_next (order .channelLevel arg []) ht
  | routeMode arg => exact of_next (order .routeMode arg []) ht
  | keepTables arg => exact of_next (order .keepTables arg []) ht
  | resetPart arg => exact of_next (order .resetPart arg []) ht
  | frameTimeout arg => exact of_next (order .frameTimeout arg []) ht
  | querySegment ch ps => exact of_next (query 0 ch ps) ht
  | queryRegion ch ps => exact of_next (query 1 ch ps) ht
  | queryPage ch ps => exact of_next (query 2 ch ps) ht
  | queryItem ch ps => exact of_next (query 3 ch ps) ht
  | queryStack ch ps => exact of_next (query 4 ch ps) ht
  | queryPen ch ps => exact of_next (query 5 ch ps) ht
  | queryTrack ch ps => exact of_next (query 6 ch ps) ht
  | queryChannels ch ps => exact of_next (query 7 ch ps) ht
  | queryFaults ch ps => exact of_next (query 8 ch ps) ht
  | queryPart ch ps => exact of_next (query 9 ch ps) ht

/-- Every step keeps the law. -/
theorem step (s t : State) (h : P s) (ht : Machine.step s = .next t) : P t := by
  unfold Machine.step at ht
  split at ht
  · exact of_next (K.tick s h) ht
  · exact K.exec _ t _ (K.model s _ s.draws h) ht

end ActionsKeep

end Sys2Proof.Machine
end

section
/-! Laws of single parts of the state: of points, of tables and of the Notice Queue. Such a law is kept by every step as
soon as each write of one part keeps it. The blocks are taken apart into those writes here, once for all of these laws. -/

namespace Sys2Proof.Machine

/-! ### The points that a lawful state holds -/

namespace State.TrackerLaw

variable {s : State} (h : s.TrackerLaw) (p : Pen)
include h

theorem tracker : (s.tracker p).Law := (h.2.1 p).1
theorem claims : (s.tracker p).ClaimLaw := (h.2.1 p).2.1
theorem pen : (s.pen p).PointLaw := (h.2.1 p).2.2.1
theorem latched : (s.regionTest p).latched.Law := (h.2.1 p).2.2.2

end State.TrackerLaw

/-- The points that a pen engine holds are among those of another. -/
theorem PenEngine.PointLaw.mono {e f : PenEngine} (h : e.PointLaw) (hc : ∀ c ∈ f.candidates, c ∈ e.candidates)
    (ha : ∀ o, f.attempt = .holding o → e.attempt = .holding o) : f.PointLaw :=
  ⟨fun c hf => h.1 c (hc c hf), fun o ho => h.2 o (ha o ho)⟩

/-- A pen engine that holds no candidate and no outcome holds no point. -/
theorem PenEngine.pointLaw_of_empty {e : PenEngine} (hc : e.candidates = []) (ha : ∀ o, e.attempt ≠ .holding o) :
    e.PointLaw :=
  ⟨fun _ hm => absurd (hc ▸ hm) List.not_mem_nil, fun o ho => absurd ho (ha o)⟩

theorem mem_renumberFrom {n : Nat} {cs : List Candidate} {c : Candidate} (h : c ∈ renumberFrom n cs) :
    ∃ d ∈ cs, d.strike = c.strike ∧ d.key = c.key := by
  induction cs generalizing n with
  | nil => cases h
  | cons d ds ih =>
    rw [renumberFrom] at h
    rcases List.mem_cons.1 h with rfl | h
    · exact ⟨d, List.mem_cons_self .., rfl, rfl⟩
    · obtain ⟨x, hx, hs⟩ := ih h
      exact ⟨x, List.mem_cons_of_mem d hx, hs⟩

@[simp] theorem PenEngine.renumbered_attempt (e : PenEngine) : e.renumbered.attempt = e.attempt := by
  unfold PenEngine.renumbered; split <;> rfl

@[simp] theorem PenEngine.join_attempt (e : PenEngine) (key : Key) (kind : CandidateKind) (strike : Point) :
    (e.join key kind strike).attempt = e.attempt := e.renumbered_attempt

@[simp] theorem PenEngine.recordKey_attempt (e : PenEngine) (key : Key) (kind : CandidateKind) (strike : Point) :
    (e.recordKey key kind strike).attempt = e.attempt := by
  unfold PenEngine.recordKey PenEngine.displace
  split
  · rfl
  · split
    · simp
    · split
      · simp
      · split
        · simp
        · rfl

theorem PenEngine.join_points {e : PenEngine} (h : ∀ c ∈ e.candidates, c.strike.Law) (key : Key) (kind : CandidateKind)
    {strike : Point} (hs : strike.Law) : ∀ c ∈ (e.join key kind strike).candidates, c.strike.Law := by
  intro c hc
  rcases List.mem_append.1 hc with hc | hc
  · unfold PenEngine.renumbered at hc
    split at hc
    · obtain ⟨d, hd, hstrike, -⟩ := mem_renumberFrom hc
      rw [← hstrike]; exact h d hd
    · exact h c hc
  · rw [List.mem_singleton.1 hc]; exact hs

/-- R76 to R78: the points of the candidate list after a hit. -/
theorem PenEngine.recordKey_points {e : PenEngine} (h : ∀ c ∈ e.candidates, c.strike.Law) (key : Key)
    (kind : CandidateKind) {strike : Point} (hs : strike.Law) :
    ∀ c ∈ (e.recordKey key kind strike).candidates, c.strike.Law := by
  unfold PenEngine.recordKey PenEngine.displace
  split
  · intro c hc
    obtain ⟨d, hd, rfl⟩ := List.mem_map.1 hc
    unfold Candidate.hit
    split
    · exact hs
    · exact h d hd
  · split
    · exact PenEngine.join_points h key kind hs
    · split
      · exact PenEngine.join_points h key kind hs
      · split
        · exact PenEngine.join_points (fun c hc => h c (List.mem_filter.1 hc).1) key kind hs
        · exact h

/-- R80, R81: each record that a weighing keeps has the strike point of a record of the pen. -/
theorem State.mem_weighedList {s : State} {p : Pen} {c : Candidate} (h : c ∈ s.weighedList p) :
    ∃ d ∈ (s.pen p).candidates, d.strike = c.strike ∧ d.key = c.key ∧ d.firstSeen = c.firstSeen := by
  obtain ⟨x, hx, hr⟩ := List.mem_filterMap.1 h
  obtain ⟨d, hd, rfl⟩ := List.mem_map.1 (List.mem_filter.1 hx).1
  refine ⟨d, hd, ?_⟩
  unfold State.revalidate at hr
  dsimp only at hr
  split at hr
  · split at hr
    · cases hr
    · cases hr; exact ⟨rfl, rfl, rfl⟩
    · split at hr
      · cases hr; exact ⟨rfl, rfl, rfl⟩
      · cases hr
  · cases hr

theorem bestOf_mem {α : Type} {better : α → α → Bool} {l : List α} {x : α} (h : bestOf better l = some x) : x ∈ l := by
  induction l generalizing x with
  | nil => cases h
  | cons c cs ih =>
    unfold bestOf at h
    split at h
    · cases h; exact List.mem_cons_self ..
    · next d hd =>
      split at h
      · cases h; exact List.mem_cons_of_mem c (ih hd)
      · cases h; exact List.mem_cons_self ..

/-- R82: the qualified set is taken from the list weighed. -/
theorem PenEngine.qualify_subset (e : PenEngine) (cs : List Candidate) : ∀ c ∈ (e.qualify cs).1, c ∈ cs := by
  intro c hc
  have met : ∀ c ∈ cs.filter e.record.quotaMet, c ∈ cs := fun c hc => (List.mem_filter.1 hc).1
  unfold PenEngine.qualify at hc
  dsimp only at hc
  split at hc
  · split at hc
    · exact met c hc
    · exact met c (List.mem_filter.1 hc).1
  · exact met c hc

/-! ### Menus and winding counters -/

/-- R134: the stack after an action. -/
theorem afterStack_lawful {stack : List Nat} (hl : stack.length ≤ 6) (hd : stack.Nodup) (hn : ∀ n ∈ stack, n ≤ 31)
    (a : AfterAction) :
    (afterStack a stack).length ≤ 6 ∧ (afterStack a stack).Nodup ∧ ∀ n ∈ afterStack a stack, n ≤ 31 := by
  have sub : (afterStack a stack).Sublist stack := by
    cases a with
    | stay => exact List.Sublist.refl _
    | ascend =>
      simp only [afterStack, popPage]
      split
      · exact List.dropLast_sublist _
      · exact List.Sublist.refl _
    | root => exact List.take_sublist _ _
  exact ⟨sub.length_le.trans hl, hd.sublist sub, fun n hm => hn n (sub.subset hm)⟩

/-- R133, R134: the Menu Unit after the action of an item that exists. -/
theorem perform_lawful {u : MenuUnit} (h : u.Lawful) {n k : Nat} {item : Item} (hi : u.item n k = some item) :
    (u.perform n k item).1.Lawful := by
  obtain ⟨⟨hlen, hnodup, hle⟩, hpages, hwf⟩ := h
  have mem : item ∈ (u.page n).items := by
    unfold MenuUnit.item at hi
    split at hi
    · exact List.mem_of_getElem? hi
    · cases hi
  obtain ⟨hpage, hitems⟩ := hpages n
  obtain ⟨hchannel, htarget⟩ := hitems item mem
  unfold MenuUnit.perform
  split
  · next t ht =>
    have := htarget t ht
    unfold MenuUnit.descend Config.stackDepth
    dsimp only
    split
    · exact ⟨⟨hlen, hnodup, hle⟩, hpages, hwf⟩
    · next hdepth =>
      split
      · exact ⟨⟨hlen, hnodup, hle⟩, hpages, hwf⟩
      · next hloop =>
        split
        · exact ⟨⟨hlen, hnodup, hle⟩, hpages, hwf⟩
        · refine ⟨⟨by simp; omega, ?_, ?_⟩, hpages, hwf⟩
          · have : t ∉ u.stack := by simpa using hloop
            exact List.nodup_append.2 ⟨hnodup, List.nodup_singleton t, by
              intro a ha b hb; rw [List.mem_singleton.1 hb]; rintro rfl; exact this ha⟩
          · simp only [List.mem_append, List.mem_singleton]
            rintro m (hm | rfl)
            · exact hle m hm
            · exact this
  · simp only [MenuUnit.ascend]
    split
    · exact ⟨by simpa [afterStack] using afterStack_lawful hlen hnodup hle .ascend, hpages, hwf⟩
    · exact ⟨⟨hlen, hnodup, hle⟩, hpages, hwf⟩
  · exact ⟨afterStack_lawful hlen hnodup hle _, hpages, hwf⟩
  · have lawful : MenuUnit.Lawful u := ⟨⟨hlen, hnodup, hle⟩, hpages, hwf⟩
    obtain ⟨-, hpages', hwf'⟩ := lawful.writePage n
      (r := { u.page n with items := (u.page n).items.set k { item with toggle := !item.toggle } })
      ⟨by simpa using hpage.1, fun hv => by simp [hpage.2 hv]⟩
      (fun i hi => by
        rcases List.mem_or_eq_of_mem_set hi with hi | rfl
        · exact hitems i hi
        · exact ⟨hchannel, htarget⟩)
    exact ⟨afterStack_lawful hlen hnodup hle _, hpages', hwf'⟩

theorem pick_lawful {u : MenuUnit} (h : u.Lawful) (p : Pen) (n k : Nat) : (u.pick p n k).1.Lawful := by
  unfold MenuUnit.pick
  split
  · exact h
  · split
    · exact h
    · next item hi =>
      split
      · exact perform_lawful h hi
      · exact h

theorem stepCounter_lawful {t : RegionTest} (h : t.Lawful) (r : Nat) (c : Int) : (t.stepCounter r c).Lawful := by
  obtain ⟨hcount, hc, hs⟩ := h
  unfold RegionTest.stepCounter
  split
  · exact ⟨hcount, hc, hs⟩
  · split
    · exact ⟨hcount, hc, Table.wf_write false true r hs⟩
    · next hrange =>
      simp only [Config.maxWinding] at hrange
      refine ⟨fun q => ?_, Table.wf_write _ _ _ hc, hs⟩
      have hread : RegionTest.counter { t with counters := Table.write 0 t.counters r (t.counter r + c) } q =
          if q = r then t.counter r + c else t.counter q := by
        unfold RegionTest.counter
        split
        · next heq => rw [heq, Table.read_write_same]
        · next hne => rw [Table.read_write_other _ _ hne]
      rw [hread]
      split
      · omega
      · exact hcount q

/-! ### A tracker that leaves LOCKED (R67) -/

/-- The claims that wait do not change with a tracker's other fields. -/
theorem State.claims_setTracker (s : State) (p : Pen) {t : Tracker} (ht : t.trackClaim = (s.tracker p).trackClaim)
    (hp : t.positionClaim = (s.tracker p).positionClaim) : (s.setTracker p t).claims = s.claims := by
  cases p <;> simp_all [State.claims, State.setTracker, State.tracker, Pair.set, Pair.get]

theorem State.hasRoom_setTracker (s : State) (p : Pen) {t : Tracker}
    (ht : t.trackClaim = (s.tracker p).trackClaim) (hp : t.positionClaim = (s.tracker p).positionClaim) :
    (s.setTracker p t).hasRoom = s.hasRoom := by
  unfold State.hasRoom
  rw [State.claims_setTracker s p ht hp]
  rfl

/-- R67: the notification reads nothing of the tracker but its claims. -/
theorem State.notifyUnlocked_setTracker (s : State) (p : Pen) {t : Tracker}
    (ht : t.trackClaim = (s.tracker p).trackClaim) (hp : t.positionClaim = (s.tracker p).positionClaim) :
    (s.setTracker p t).notifyUnlocked p = (s.notifyUnlocked p).setTracker p t := by
  have miss (r : MissReason) (a : AttemptState) :
      (s.setTracker p t).endMiss p r a = (s.endMiss p r a).setTracker p t := by
    unfold State.endMiss State.offerNotice
    rw [State.hasRoom_setTracker s p ht hp]
    split <;> rfl
  unfold State.notifyUnlocked
  rw [State.pen_setTracker]
  cases (s.pen p).attempt with
  | regionWait => exact miss _ _
  | regionCount => exact miss _ _
  | off => rfl
  | ready => rfl
  | gathering => rfl
  | holding o => rfl
  | settled k b => rfl

/-! ### Writes of one part -/

/-- Each write of one part keeps `P`. `points` says that `P` is a law of points: then what is written is lawful, as the
state's own points are. -/
structure PartsKeep (points : Prop) (pens : Pen → Prop) (P : State → Prop) : Prop where
  lawful : ∀ s : State, points → P s → s.TrackerLaw
  others : ∀ (s : State) l d v q n, P s →
    P { s with link := l, decoder := d, supervisor := v, pending := q, draws := n }
  raiseFault : ∀ (s : State) k c, P s → P (s.raiseFault k c)
  beam : ∀ (s : State) b, (points → b.Law) → P s → P { s with beam := b }
  injection : ∀ (s : State) l, (points → ∀ d ∈ l, d.point.Law) → P s → P { s with injection := l }
  segments : ∀ (s : State) t, (Table.wf SegEntry.blank s.segments = true → Table.wf SegEntry.blank t = true) →
    P s → P { s with segments := t }
  records : ∀ (s : State) t,
    (Table.wf RegionRecord.blank s.regions.records = true → Table.wf RegionRecord.blank t = true) →
    P s → P { s with regions := { s.regions with records := t } }
  rewrite : ∀ (s : State) r, r.echo = s.rewrite.echo → P s → P { s with rewrite := r }
  setEcho : ∀ (s : State) p, pens p → ∀ v, P s → P (s.setEcho p v)
  channels : ∀ (s : State) u, u.queue = s.notices.queue → u.lru = s.notices.lru →
    (Table.wf 0 s.notices.levels = true → Table.wf 0 u.levels = true) → P s → P { s with notices := u }
  menu : ∀ (s : State) m, (s.menu.Lawful → m.Lawful) → P s → P { s with menu := m }
  setPen : ∀ (s : State) p e, pens p → (points → e.PointLaw) → P s → P (s.setPen p e)
  setTracker : ∀ (s : State) p t, pens p → (points → t.Law ∧ t.ClaimLaw) → P s → P (s.setTracker p t)
  setTest : ∀ (s : State) p t, pens p → (points → t.latched.Law) → ((s.regionTest p).Lawful → t.Lawful) → P s →
    P (s.setRegionTest p t)
  enter : ∀ (s : State) r o b, s.entryFree = true → (points → b.PointLaw) →
    (∀ c, b = .position c → ∃ p, o = some p ∧ s.positionQueued p = false) → P s → P (s.enterNotice r o b)
  rewritten : ∀ (s : State) p req, (points → req.point.Law) → P s →
    P { s with notices := { s.notices with queue := s.notices.queue.map (Notice.rewritten p req) } }
  accepts : ∀ (s : State) n rest, s.notices.queue = n :: rest → n.accepted + 1 < n.length → P s →
    P { s with notices := { s.notices with queue := { n with accepted := n.accepted + 1 } :: rest } }
  frees : ∀ (s : State) n rest, s.notices.queue = n :: rest → P s →
    P { s with notices := { s.notices with queue := rest } }

theorem State.entryFree_of_hasRoom {s : State} (h : s.hasRoom = true) : s.entryFree = true := by
  simp only [State.hasRoom, Bool.and_eq_true] at h
  exact h.1

namespace PartsKeep

variable {points : Prop} {pens : Pen → Prop} {P : State → Prop} (K : PartsKeep points pens P)
include K

/-! ### Notices and attempts -/

/-- A notice that is not a POSITION notice and carries no point. -/
theorem enterPlain (s : State) (r : BitVec 4) (o : Option Pen) (b : NoticeBody) (free : s.entryFree = true)
    (hb : b.PointLaw) (hp : ∀ c, b ≠ .position c) (h : P s) : P (s.enterNotice r o b) :=
  K.enter s r o b free (fun _ => hb) (fun c hc => absurd hc (hp c)) h

theorem setPhase (s : State) (p : Pen) (own : pens p) (ph : TestPhase) (h : P s) :
    P (s.setRegionTest p { s.regionTest p with phase := ph }) :=
  K.setTest s p _ own (fun hp => (K.lawful s hp h).latched p) (fun ht => ht) h

theorem endMiss (s : State) (p : Pen) (own : pens p) (r : MissReason) (next : AttemptState) (hn : ∀ o, next ≠ .holding o) (h : P s) :
    P (s.endMiss p r next) := by
  have offered : P (s.offerNotice (s.defaultRoute p) (some p)
      (.miss r (s.pen p).frameCount (s.pen p).candidates.length (s.pen p).crowded)) := by
    unfold State.offerNotice
    split
    · next room => exact K.enterPlain s _ _ _ (State.entryFree_of_hasRoom room) trivial (by simp) h
    · exact h
  refine K.setPhase _ p own .idle (K.setEcho _ p own none (K.setPen _ p _ own (fun _ => ?_) offered))
  exact PenEngine.pointLaw_of_empty rfl hn

theorem notifyUnlocked (s : State) (p : Pen) (own : pens p) (h : P s) : P (s.notifyUnlocked p) := by
  obtain ⟨heq, -⟩ | ⟨heq, -⟩ := s.notifyUnlocked_cases p
  · rw [heq]; exact h
  · rw [heq]; exact K.endMiss s p own _ _ (by simp) h

theorem notifyIfLocked (s : State) (p : Pen) (own : pens p) (b : TrackState) (h : P s) : P (s.notifyIfLocked p b) := by
  unfold State.notifyIfLocked
  split
  · exact K.notifyUnlocked s p own h
  · exact h

/-! ### Trackers (06) -/

theorem trackRequest (s : State) (p : Pen) (own : pens p) (req : TrackClaim) (hr : points → req.point.Law) (h : P s) :
    P (s.trackRequest p req) := by
  obtain ⟨heq, -, room⟩ | ⟨heq, -⟩ := s.trackRequest_cases p req
  · rw [heq]
    exact K.enter s _ _ _ (State.entryFree_of_hasRoom room) hr (by simp) h
  · rw [heq]
    refine K.setTracker s p _ own (fun hp => ⟨(K.lawful s hp h).tracker p, fun c hc => ?_, ?_⟩) h
    · cases hc; exact hr hp
    · exact ((K.lawful s hp h).claims p).2

theorem placePosition (s : State) (p : Pen) (own : pens p) (req : PositionClaim) (hr : points → req.point.Law) (h : P s) :
    P (s.placePosition p req) := by
  have claimed : P (s.setTracker p { s.tracker p with positionClaim := some req }) := by
    refine K.setTracker s p _ own (fun hp => ⟨(K.lawful s hp h).tracker p, ((K.lawful s hp h).claims p).1, ?_⟩) h
    intro c hc
    cases hc; exact hr hp
  unfold State.placePosition
  dsimp only
  split
  · exact K.rewritten s p req hr h
  · split
    · exact claimed
    · split
      · next hok =>
        simp only [Bool.and_eq_true, Bool.not_eq_true'] at hok
        exact K.enter s _ _ _ (State.entryFree_of_hasRoom hok.2) hr (fun c _ => ⟨p, rfl, hok.1⟩) h
      · exact claimed

theorem positionRequest (s : State) (p : Pen) (own : pens p) (req : PositionClaim) (hr : points → req.point.Law) (h : P s) :
    P (s.positionRequest p req) := by
  unfold State.positionRequest
  dsimp only
  split
  · exact h
  · have placed := K.placePosition s p own req hr h
    refine K.setTracker _ p _ own (fun hp => ⟨?_, (K.lawful _ hp placed).claims p⟩) placed
    obtain ⟨hpos, -, hrest⟩ := (K.lawful _ hp placed).tracker p
    exact ⟨hpos, hr hp, hrest⟩

/-- A tracker record with another state, in which it does not coast, at a lawful point, with its claims kept. -/
theorem setTrackerState (s : State) (p : Pen) (own : pens p) (t : Tracker) (h : P s)
    (hpoint : points → t.position.Law ∧ t.lastReported.Law)
    (hpitch : t.pitch = (s.tracker p).pitch) (hlimit : t.coastLimit = (s.tracker p).coastLimit)
    (hcoast : t.state ≠ .coasting) (hcount : t.missCount = 0)
    (htrack : t.trackClaim = (s.tracker p).trackClaim) (hposition : t.positionClaim = (s.tracker p).positionClaim) :
    P (s.setTracker p t) := by
  refine K.setTracker s p t own (fun hp => ⟨?_, ?_⟩) h
  · obtain ⟨-, -, h3, h4, h5, h6, -⟩ := (K.lawful s hp h).tracker p
    obtain ⟨hpos, hlast⟩ := hpoint hp
    exact ⟨hpos, hlast, hpitch ▸ h3, hpitch ▸ h4, hlimit ▸ h5, hlimit ▸ h6, fun hc => absurd hc hcoast,
      fun _ => hcount⟩
  · unfold Tracker.ClaimLaw
    rw [htrack, hposition]
    exact (K.lawful s hp h).claims p

theorem trackerPoints (s : State) (p : Pen) (h : P s) :
    points → (s.tracker p).position.Law ∧ (s.tracker p).lastReported.Law := by
  intro hp
  obtain ⟨h1, h2, -⟩ := (K.lawful s hp h).tracker p
  exact ⟨h1, h2⟩

/-- R99: the coast limit is compared with the count as it was before this close. -/
theorem coastLimitReached (s : State) (p : Pen) (own : pens p) (t : Tracker) (h : P s)
    (hstate : t.state = .coasting) (hcount : 1 ≤ t.missCount)
    (hle : points → t.missCount ≤ (s.tracker p).coastLimit)
    (hkept : t = { s.tracker p with state := t.state, missCount := t.missCount, tally := t.tally }) :
    P ((s.setTracker p t).coastLimitReached p) := by
  have position : t.position = (s.tracker p).position := by rw [hkept]
  have points_kept : points → t.position.Law ∧ t.lastReported.Law := by rw [hkept]; exact K.trackerPoints s p h
  have limit : t.coastLimit = (s.tracker p).coastLimit := by rw [hkept]
  unfold State.coastLimitReached
  simp only [State.tracker_setTracker, State.setTracker_setTracker, hstate, true_and]
  split
  · refine K.trackRequest _ p own _ (fun hp => (points_kept hp).1) ?_
    exact K.setTrackerState s p own _ h points_kept (by rw [hkept]) limit (by simp) rfl (by rw [hkept]) (by rw [hkept])
  · next hne =>
    refine K.setTracker s p t own (fun hp => ⟨?_, ?_⟩) h
    · obtain ⟨-, -, h3, h4, h5, h6, -⟩ := (K.lawful s hp h).tracker p
      have hle := hle hp
      obtain ⟨hpos, hlast⟩ := points_kept hp
      refine ⟨hpos, hlast, by rw [hkept]; exact h3, by rw [hkept]; exact h4, limit ▸ h5, limit ▸ h6,
        fun _ => ⟨hcount, by omega⟩, fun hc => absurd hstate hc⟩
    · rw [hkept]; exact (K.lawful s hp h).claims p

theorem coast (s : State) (p : Pen) (own : pens p) (h : P s) : P (s.coast p) := by
  have kept (hc : (s.tracker p).state ≠ .coasting) : P (s.setTracker p { s.tracker p with tally := Tally.empty }) := by
    refine K.setTracker s p _ own (fun hp => ⟨?_, (K.lawful s hp h).claims p⟩) h
    exact (K.lawful s hp h).tracker p
  unfold State.coast
  dsimp only
  split
  · next hs => exact kept (by simp [hs])
  · next hs => exact kept (by simp [hs])
  · next hs =>
    rw [State.notifyUnlocked_setTracker s p (by rfl) (by rfl)]
    have told := K.notifyUnlocked s p own h
    have same : (s.notifyUnlocked p).tracker p = s.tracker p := by simp [State.tracker]
    refine K.coastLimitReached _ p own _ told rfl (Nat.le_refl 1) (fun hp => ?_) (by rw [same])
    rw [same]
    exact ((K.lawful s hp h).tracker p).2.2.2.2.1
  · next hs =>
    refine K.coastLimitReached s p own _ h hs (Nat.le_add_left 1 _) (fun hp => ?_) rfl
    obtain ⟨-, -, -, -, -, -, h7, -⟩ := (K.lawful s hp h).tracker p
    exact (h7 hs).2

theorem correct (s : State) (p : Pen) (own : pens p) (h : P s) : P (s.correct p) := by
  have locked : P (s.setTracker p { s.tracker p with
      state := .locked, position := (s.tracker p).corrected, missCount := 0, tally := Tally.empty }) :=
    K.setTrackerState s p own _ h (fun hp => ⟨Point.displaced_law .., (K.trackerPoints s p h hp).2⟩) rfl rfl (by simp) rfl
      rfl rfl
  have told : P (State.lockedRequest (s.setTracker p { s.tracker p with
      state := .locked, position := (s.tracker p).corrected, missCount := 0, tally := Tally.empty }) p
      (s.tracker p).state) := by
    unfold State.lockedRequest
    dsimp only
    split
    · exact K.trackRequest _ p own _ (fun hp => (K.trackerPoints _ p locked hp).1) locked
    · exact locked
  unfold State.correct State.movedRequest
  dsimp only
  split
  · exact K.positionRequest _ p own _ (fun hp => (K.trackerPoints _ p told hp).1) told
  · exact told

theorem trackerFrameClose (s : State) (p : Pen) (own : pens p) (h : P s) : P (s.trackerFrameClose p) := by
  unfold State.trackerFrameClose
  dsimp only
  split
  · exact h
  · split
    · exact K.setTracker s p _ own (fun hp => ⟨(K.lawful s hp h).tracker p, (K.lawful s hp h).claims p⟩) h
    · split
      · exact K.coast s p own h
      · exact K.correct s p own h

theorem setTrack (s : State) (p : Pen) (own : pens p) (point : Point) (pitch coast : Nat) (hpoint : point.Law) (hlo : 2 ≤ pitch)
    (hhi : pitch ≤ 64) (hc1 : 1 ≤ coast) (hc15 : coast ≤ 15) (h : P s) : P (s.setTrack p point pitch coast) := by
  refine K.notifyIfLocked _ p own _ (K.setTracker s p _ own (fun hp => ⟨?_, (K.lawful s hp h).claims p⟩) h)
  exact ⟨hpoint, hpoint, hlo, hhi, hc1, hc15, by simp, fun _ => rfl⟩

theorem dropDots (s : State) (p : Pen) (h : P s) : P (s.dropDots p) :=
  K.injection s _ (fun hp d hd => (K.lawful s hp h).dots d (List.mem_filter.1 hd).1) h

theorem turnTrackerOff (s : State) (p : Pen) (own : pens p) (h : P s) : P (s.turnTrackerOff p) := by
  refine K.notifyIfLocked _ p own _ (K.dropDots _ p (K.setTracker s p _ own (fun hp => ⟨?_, ?_⟩) h))
  · obtain ⟨h1, h2, h3, h4, h5, h6, -⟩ := (K.lawful s hp h).tracker p
    exact ⟨h1, h2, h3, h4, h5, h6, by simp [Tracker.turnedOff], fun _ => rfl⟩
  · exact ⟨by simp, by simp⟩

theorem dragSeed (s : State) (p : Pen) (own : pens p) (strike : Point) (hs : points → strike.Law) (h : P s) :
    P (s.dragSeed p strike) :=
  K.notifyIfLocked _ p own _ (K.setTrackerState s p own _ h (fun hp => ⟨hs hp, hs hp⟩) rfl rfl (by simp) rfl rfl rfl)

theorem trackerTipUp (s : State) (p : Pen) (own : pens p) (h : P s) : P (s.trackerTipUp p) := by
  unfold State.trackerTipUp
  dsimp only
  split
  · have off : P (s.setTracker p (s.tracker p).turnedOff) :=
      K.setTrackerState s p own _ h (K.trackerPoints s p h) rfl rfl (by simp [Tracker.turnedOff]) rfl rfl rfl
    exact K.notifyIfLocked _ p own _ (K.positionRequest _ p own _ (fun hp => (K.trackerPoints s p h hp).1)
      (K.dropDots _ p off))
  · exact h

theorem trackerExpiry (s : State) (p : Pen) (own : pens p) (h : P s) : P (s.trackerExpiry p) := by
  unfold State.trackerExpiry
  dsimp only
  split
  · have seeking : P (s.setTracker p { s.tracker p with state := .seeking, missCount := 0, tally := Tally.empty }) :=
      K.setTrackerState s p own _ h (K.trackerPoints s p h) rfl rfl (by simp) rfl rfl rfl
    exact K.notifyIfLocked _ p own _ (K.trackRequest _ p own _ (fun hp => (K.trackerPoints s p h hp).1) seeking)
  · exact h

theorem crossHit (s : State) (p : Pen) (own : pens p) (arm : Arm) (k : Nat) (h : P s) : P (s.crossHit p arm k) := by
  unfold State.crossHit
  dsimp only
  split
  · exact K.setTracker s p _ own (fun hp => ⟨(K.lawful s hp h).tracker p, (K.lawful s hp h).claims p⟩) h
  · exact h

theorem fixCrosses (s : State) (all : ∀ p, pens p) (h : P s) : P s.fixCrosses := by
  have fixed (a : State) (p : Pen) (ha : P a) : P (a.setTracker p (a.tracker p).crossFixed) := by
    refine K.setTracker a p _ (all p) (fun hp => ?_) ha
    have law := (K.lawful a hp ha).tracker p
    have claims := (K.lawful a hp ha).claims p
    unfold Tracker.crossFixed
    split
    · exact ⟨law, claims⟩
    · exact ⟨law, claims⟩
  have dots (p : Pen) (t : Tracker) : ∀ d ∈ crossDots p t, d.point.Law := by
    have arm_law (c : Point) (n : Nat) (arm : Arm) : ∀ d ∈ armDots p c n arm, d.point.Law := by
      intro d hd
      obtain ⟨k, -, rfl⟩ := List.mem_map.1 hd
      cases arm <;> exact Point.displaced_law ..
    unfold crossDots
    split
    · simp only [List.forall_mem_append]
      exact ⟨⟨⟨arm_law _ _ _, arm_law _ _ _⟩, arm_law _ _ _⟩, arm_law _ _ _⟩
    · simp
  exact K.injection _ (crossDots .a s.trackers.a ++ crossDots .b s.trackers.b)
    (fun _ => List.forall_mem_append.2 ⟨dots _ _, dots _ _⟩) (fixed _ .b (fixed s .a h))

/-! ### Pen engines (04, 05) -/

/-- A write of a pen engine that brings no new point. -/
theorem setPenMono (s : State) (p : Pen) (own : pens p) (e : PenEngine) (hc : ∀ c ∈ e.candidates, c ∈ (s.pen p).candidates)
    (ha : ∀ o, e.attempt = .holding o → (s.pen p).attempt = .holding o) (h : P s) : P (s.setPen p e) :=
  K.setPen s p e own (fun hp => ((K.lawful s hp h).pen p).mono hc ha) h

theorem finishDelivery (s : State) (p : Pen) (own : pens p) (o : LastOutcome) (key : Option Key) (h : P s) :
    P (s.finishDelivery p o key) := by
  refine K.setPenMono s p own _ (fun c hc => hc) (fun x hx => ?_) h
  simp only [PenEngine.afterDelivery] at hx
  repeat' split at hx
  all_goals cases hx

theorem markPicked (s : State) (p : Pen) (seg : Nat) (h : P s) : P (s.markPicked p seg) := by
  unfold State.markPicked
  split
  · exact K.segments s _ (fun hwf => Table.wf_write _ _ _ hwf) h
  · exact h

theorem deliverPick (s : State) (p : Pen) (own : pens p) (key : Key) (strike : Point) (cycled : Bool) (free : s.entryFree = true)
    (hs : points → strike.Law) (h : P s) : P (s.deliverPick p key strike cycled) := by
  have marked := K.markPicked _ p key.segment (K.enter s (s.routeOr (s.image key.segment).route p) (some p)
    (.pick key (s.image key.segment).cls strike cycled (s.pen p).record.mark (s.image key.segment).drag) free hs
    (by simp) h)
  unfold State.deliverPick
  dsimp only
  refine K.finishDelivery _ p own _ _ ?_
  split
  · exact K.dragSeed _ p own strike hs marked
  · exact marked

theorem menuPick (s : State) (p : Pen) (n k : Nat) (cycled marked : Bool) (free : s.entryFree = true) (h : P s) :
    P (s.menuPick p n k cycled marked) :=
  K.enterPlain _ _ _ _ free trivial (by simp [MenuUnit.notice]) (K.menu s _ (fun hm => pick_lawful hm p n k) h)

theorem deliverMenu (s : State) (p : Pen) (own : pens p) (key : Key) (n k : Nat) (cycled : Bool) (free : s.entryFree = true)
    (h : P s) : P (s.deliverMenu p key n k cycled) :=
  K.finishDelivery _ p own _ _ (K.markPicked _ p _ (K.menuPick s p n k _ _ free h))

theorem deliver (s : State) (p : Pen) (own : pens p) (o : HeldOutcome) (free : s.entryFree = true) (ho : points → o.point.Law)
    (h : P s) : P (s.deliver p o) := by
  unfold State.deliver
  split
  · exact K.finishDelivery _ p own _ _ (K.enter s _ _ _ free ho (by simp) h)
  · split
    · exact K.deliverMenu s p own _ _ _ _ free h
    · exact K.deliverPick s p own _ _ _ free ho h
    · exact K.deliverPick s p own _ _ _ free ho h

theorem claimOutcome (s : State) (p : Pen) (own : pens p) (o : HeldOutcome) (ho : points → o.point.Law) (h : P s) :
    P (s.claimOutcome p o) := by
  unfold State.claimOutcome
  split
  · next room => exact K.deliver s p own o (State.entryFree_of_hasRoom room) ho h
  · refine K.setPen s p _ own (fun hp => ⟨((K.lawful s hp h).pen p).1, fun x hx => ?_⟩) h
    cases hx; exact ho hp

theorem weigh (s : State) (p : Pen) (own : pens p) (hg : (s.pen p).attempt = .gathering) (h : P s) : P (s.weigh p) := by
  have strikes (hp : points) : ∀ c ∈ s.weighedList p, c.strike.Law := by
    intro c hc
    obtain ⟨d, hd, hs, -⟩ := State.mem_weighedList hc
    rw [← hs]; exact ((K.lawful s hp h).pen p).1 d hd
  unfold State.weigh State.endWeighing
  dsimp only
  have weighed : P (s.setPen p { s.pen p with
      candidates := s.weighedList p, frameCount := (s.pen p).frameCount + 1
      exclusions := ((s.pen p).qualify (s.weighedList p)).2 }) :=
    K.setPen s p _ own (fun hp => ⟨strikes hp, fun o ho => by simp [hg] at ho⟩) h
  split
  · next winner hw =>
    have won : winner ∈ s.weighedList p := PenEngine.qualify_subset _ _ _ (bestOf_mem hw)
    refine K.claimOutcome _ p own _ (fun hp => strikes hp winner won) (K.setEcho _ p own none ?_)
    exact K.setPenMono _ p own _ (by simp) (fun o ho => ho) weighed
  · split
    · refine K.endMiss _ p own _ _ (fun o => ?_) weighed
      unfold Mode.afterSpan
      split <;> simp
    · unfold State.writeEcho
      split
      · exact K.setEcho _ p own _ weighed
      · exact weighed

theorem writeEcho (s : State) (p : Pen) (own : pens p) (v : Option Nat) (h : P s) : P (s.writeEcho p v) := by
  unfold State.writeEcho
  split
  · exact K.setEcho s p own v h
  · exact h

theorem penFrameClose (s : State) (p : Pen) (own : pens p) (h : P s) : P (s.penFrameClose p) := by
  unfold State.penFrameClose
  split
  · next hg => exact K.weigh s p own hg h
  · refine K.writeEcho _ p own none (K.setPenMono s p own _ (fun c hc => hc) (fun o ho => ?_) h)
    simp only [PenEngine.settledClose] at ho
    repeat' split at ho
    all_goals cases ho
  · exact h
  all_goals exact K.writeEcho s p own none h

theorem recordHit (s : State) (p : Pen) (own : pens p) (key : Key) (strike : Point) (hs : points → strike.Law) (h : P s) :
    P (s.recordHit p key strike) := by
  unfold State.recordHit
  split
  · exact h
  · refine K.setPen s p _ own (fun hp => ?_) h
    obtain ⟨hc, ho⟩ := (K.lawful s hp h).pen p
    exact ⟨PenEngine.recordKey_points hc _ _ (hs hp), by simpa using ho⟩

theorem started (s : State) (p : Pen) (own : pens p) (a : AttemptState) (ha : ∀ o, a ≠ .holding o) (h : P s) :
    P (s.setPen p ((s.pen p).started a)) :=
  K.setPen s p _ own (fun _ => PenEngine.pointLaw_of_empty rfl ha) h

theorem hit (s : State) (p : Pen) (own : pens p) (key : Key) (strike : Point) (hs : points → strike.Law) (h : P s) :
    P (s.hit p key strike) := by
  unfold State.hit
  split
  · exact K.recordHit s p own key strike hs h
  · unfold State.readyHit
    split
    · exact K.recordHit _ p own key strike hs (K.started s p own _ (by simp) h)
    · exact h
  · unfold State.settledHit
    split
    · exact K.setPenMono s p own _ (fun c hc => hc) (by simp) h
    · exact h
  all_goals exact h

theorem startAttempt (s : State) (p : Pen) (own : pens p) (h : P s) : P (s.startAttempt p) := by
  unfold State.startAttempt
  split
  · exact K.started s p own _ (by simp) h
  · split
    · exact K.setPhase (s.setPen p ((s.pen p).started .regionWait)) p own .waiting (K.started s p own _ (by simp) h)
    · exact K.endMiss _ p own _ _ (by simp) (K.started s p own _ (by simp) h)
  · exact h
  · exact h

theorem setTip (s : State) (p : Pen) (own : pens p) (tip : Tip) (h : P s) : P (s.setPen p { s.pen p with tip := tip }) :=
  K.setPenMono s p own _ (fun _ hc => hc) (fun _ ho => ho) h

theorem penTipDown (s : State) (p : Pen) (own : pens p) (h : P s) : P (s.penTipDown p) := by
  have written := K.setTip s p own .down h
  unfold State.penTipDown
  dsimp only
  split
  · exact K.startAttempt _ p own written
  all_goals exact written

theorem penTipUp (s : State) (p : Pen) (own : pens p) (h : P s) : P (s.penTipUp p) := by
  have written := K.setTip s p own .up h
  have released := K.endMiss _ p own .released .ready (by simp) written
  unfold State.penTipUp
  dsimp only
  split
  · split
    · exact released
    · exact written
  · exact released
  · exact released
  · unfold State.settledTipUp
    split
    · exact K.setPenMono _ p own _ (fun c hc => hc) (by simp) written
    · exact K.setPenMono _ p own _ (fun c hc => hc) (by simp) written
    · exact written
    · exact written
  all_goals exact written

theorem penExpiry (s : State) (p : Pen) (own : pens p) (h : P s) : P (s.penExpiry p) := by
  have stalled := K.endMiss s p own .stalled .ready (by simp) h
  unfold State.penExpiry
  split
  · exact stalled
  · exact stalled
  · exact stalled
  all_goals exact h

theorem changeMode (s : State) (p : Pen) (own : pens p) (r : ModeRecord) (h : P s) : P (s.changeMode p r) := by
  have ended : P (s.endForMode p) := by
    have aborted := K.endMiss s p own .aborted .ready (by simp) h
    unfold State.endForMode
    split
    · exact aborted
    · exact aborted
    · exact aborted
    · exact K.setPenMono s p own _ (fun c hc => hc) (by simp) h
    all_goals exact h
  have written (a : AttemptState) (ha : ∀ o, a ≠ .holding o) : P ((s.endForMode p).writeMode p r a) :=
    K.setEcho _ p own none (K.setPen _ p _ own (fun _ => PenEngine.pointLaw_of_empty rfl ha) ended)
  have restarted : P (((s.endForMode p).writeMode p r .ready).restart p) := by
    unfold State.restart
    split
    · exact K.startAttempt _ p own (written .ready (by simp))
    · exact written .ready (by simp)
  unfold State.changeMode
  split
  · have off := K.turnTrackerOff _ p own (written .off (by simp))
    unfold State.releaseLock
    split
    · exact K.menu _ _ (fun hm => hm) off
    · exact off
  all_goals exact restarted

/-! ### Regions and menus (07, 08) -/

theorem countBoundary (s : State) (all : ∀ p, pens p) (seg : Nat) (p0 p1 : Point) (h : P s) : P (s.countBoundary seg p0 p1) := by
  have counted (b : Bound) (a : State) (p : Pen) (ha : P a) :
      P (a.setRegionTest p ((a.regionTest p).count b p0 p1)) := by
    unfold RegionTest.count
    split
    · refine K.setTest a p _ (all p) (fun hp => ?_) (fun ht => stepCounter_lawful ht _ _) ha
      unfold RegionTest.stepCounter
      repeat' split
      all_goals exact (K.lawful a hp ha).latched p
    · exact K.setTest a p _ (all p) (fun hp => (K.lawful a hp ha).latched p) (fun ht => ht) ha
  unfold State.countBoundary
  split
  · exact h
  · exact counted _ _ .b (counted _ s .a h)

theorem regionFramePassage (s : State) (p : Pen) (own : pens p) (h : P s) : P (s.regionFramePassage p) := by
  unfold State.regionFramePassage
  split
  · exact h
  · have latched : P (s.setRegionTest p (RegionTest.latch (s.tracker p).position)) :=
      K.setTest s p _ own (fun hp => (K.trackerPoints s p h hp).1)
        (fun _ => ⟨fun r => ⟨show -15 ≤ (0 : Int) by decide, show (0 : Int) ≤ 15 by decide⟩, rfl, rfl⟩) h
    exact K.setPenMono _ p own _ (fun c hc => hc) (by simp) latched
  · have idle := K.setPhase s p own .idle h
    unfold State.evaluateRegion
    dsimp only
    split
    · exact K.claimOutcome _ p own _ (fun hp => (K.lawful s hp h).latched p) idle
    · exact K.endMiss _ p own _ _ (by simp) idle

theorem enterIdleReturn (s : State) (c : IdleClaim) (free : s.entryFree = true) (h : P s) : P (s.enterIdleReturn c) :=
  K.enterPlain s _ _ _ free trivial (by simp) h

theorem menuFramePassage (s : State) (h : P s) : P s.menuFramePassage := by
  unfold State.menuFramePassage
  split
  · exact h
  · next p hp =>
    split
    · exact h
    · dsimp only
      split
      · unfold State.idleReturn State.idleRequest
        dsimp only
        have cut (claim : Option IdleClaim) : s.menu.Lawful → MenuUnit.Lawful { s.menu with
            stack := s.menu.stack.take 1, owner := none, idleCounter := 0, claim := claim } :=
          fun ⟨⟨hlen, hnodup, hle⟩, hpages, hwf⟩ => ⟨afterStack_lawful hlen hnodup hle .root, hpages, hwf⟩
        split
        · next hok =>
          simp only [Bool.and_eq_true] at hok
          exact K.enterIdleReturn _ _ (State.entryFree_of_hasRoom hok.2) (K.menu s _ (cut s.menu.claim) h)
        · exact K.menu s _ (cut _) h
      · exact K.menu s _ (fun hm => hm) h

theorem forceItem (s t : State) (n k : Nat) (free : s.entryFree = true) (ht : s.forceItem n k = some t) (h : P s) :
    P t := by
  unfold State.forceItem at ht
  split at ht
  · cases ht
  · next item hi =>
    split at ht
    · cases ht
      refine K.enterPlain _ _ _ _ free trivial (by simp [MenuUnit.notice]) (K.menu s _ (fun hm => ?_) h)
      have performed := perform_lawful hm hi
      unfold MenuUnit.lockForced
      split
      · exact performed
      · exact performed
    · cases ht

/-! ### Grants (09) -/

theorem grantTrack (s : State) (p : Pen) (own : pens p) (free : s.entryFree = true) (h : P s) : P (s.grantTrack p) := by
  unfold State.grantTrack
  split
  · next c hc =>
    refine K.enter _ _ _ _ free (fun hp => ((K.lawful s hp h).claims p).1 c hc) (by simp) (K.setTracker s p _ own ?_ h)
    exact fun hp => ⟨(K.lawful s hp h).tracker p, by simp, ((K.lawful s hp h).claims p).2⟩
  · exact h

theorem grantPosition (s : State) (p : Pen) (own : pens p) (free : s.entryFree = true) (hq : s.positionQueued p = false) (h : P s) :
    P (s.grantPosition p) := by
  unfold State.grantPosition
  split
  · next c hc =>
    refine K.enter _ _ _ _ free (fun hp => ((K.lawful s hp h).claims p).2 c hc) (fun _ _ => ⟨p, rfl, hq⟩)
      (K.setTracker s p _ own ?_ h)
    exact fun hp => ⟨(K.lawful s hp h).tracker p, ((K.lawful s hp h).claims p).1, by simp⟩
  · exact h

theorem grantIdleReturn (s : State) (free : s.entryFree = true) (h : P s) : P s.grantIdleReturn := by
  unfold State.grantIdleReturn
  split
  · exact K.enterIdleReturn _ _ free (K.menu s _ (fun hm => hm) h)
  · exact h

omit K in
/-- A law of single parts, of both pens, is kept by every action. -/
theorem actions (K : PartsKeep points (fun _ => True) P) (powerOn : P State.reset)
    (resetAll : ∀ s : State, P s → P s.resetAll) : ActionsKeep P where
  others := K.others
  powerOn := powerOn
  resetAll := resetAll
  raiseFault := K.raiseFault
  fixCrosses s := K.fixCrosses s fun _ => trivial
  beam s b hb h := K.beam s b (fun hp => hb (K.lawful s hp h)) h
  injection s l hl h := K.injection s l (fun hp d hd => (K.lawful s hp h).dots d (hl d hd)) h
  segments := K.segments
  records := K.records
  rewrite := K.rewrite
  channels := K.channels
  menu s m hm _ h := K.menu s m hm h
  forceItem := K.forceItem
  reply s r _ free h := K.enterPlain s r none _ free trivial (by simp) h
  changeMode s p r _ h := K.changeMode s p trivial r h
  setFence s p _ h := K.setPenMono s p trivial _ (fun _ hc => hc) (fun _ ho => ho) h
  clearExclusions s p h := K.setPenMono s p trivial _ (fun _ hc => hc) (fun _ ho => ho) h
  setTrack s p point pitch coast _ hp hlo hhi h1 h15 h := K.setTrack s p trivial point pitch coast hp hlo hhi h1 h15 h
  turnTrackerOff s p := K.turnTrackerOff s p trivial
  countBoundary s := K.countBoundary s fun _ => trivial
  regionFramePassage s p := K.regionFramePassage s p trivial
  menuFramePassage := K.menuFramePassage
  penFrameClose s p := K.penFrameClose s p trivial
  trackerFrameClose s p := K.trackerFrameClose s p trivial
  hit s p key strike hs h := K.hit s p trivial key strike (fun hp => hs (K.lawful s hp h)) h
  crossHit s p := K.crossHit s p trivial
  penTipDown s p := K.penTipDown s p trivial
  penTipUp s p := K.penTipUp s p trivial
  trackerTipUp s p := K.trackerTipUp s p trivial
  penExpiry s p := K.penExpiry s p trivial
  trackerExpiry s p := K.trackerExpiry s p trivial
  accepts := K.accepts
  frees := K.frees
  deliver s p o free ho h := K.deliver s p trivial o free (fun hp => ((K.lawful s hp h).pen p).2 o ho) h
  grantTrack s p := K.grantTrack s p trivial
  grantPosition s p := K.grantPosition s p trivial
  grantIdleReturn := K.grantIdleReturn

end PartsKeep

end Sys2Proof.Machine
end

section
/-! The laws of points, of tables and of the Notice Queue are kept by every write of one part, so by every step. -/

namespace Sys2Proof.Machine

/-! ### Points (O55) -/

theorem trackerLaw_of_parts {s : State} (hb : s.beam.Law) (hd : ∀ d ∈ s.injection, d.point.Law)
    (hp : ∀ p, (s.tracker p).Law ∧ (s.tracker p).ClaimLaw ∧ (s.pen p).PointLaw ∧ (s.regionTest p).latched.Law)
    (hq : ∀ n ∈ s.notices.queue, n.body.PointLaw) : s.TrackerLaw :=
  ⟨s.flightLaw_iff.2 ⟨hb, hd⟩, hp, hq⟩

theorem BeamFollower.reset_law : BeamFollower.reset.Law :=
  ⟨⟨by decide, by decide⟩, by decide, by decide, by decide, by simp [BeamFollower.reset], by simp [BeamFollower.reset]⟩

theorem Tracker.reset_law : Tracker.reset.Law ∧ Tracker.reset.ClaimLaw :=
  ⟨⟨⟨by decide, by decide⟩, ⟨by decide, by decide⟩, by decide, by decide, by decide, by decide, by decide,
    fun _ => rfl⟩, by simp [Tracker.reset], by simp [Tracker.reset]⟩

theorem RegionTest.reset_latched : RegionTest.reset.latched.Law := ⟨by decide, by decide⟩

theorem reset_trackerLaw : State.reset.TrackerLaw := by
  refine trackerLaw_of_parts BeamFollower.reset_law (by simp [State.reset]) (fun p => ?_)
    (by simp [State.reset, NoticeUnit.reset])
  obtain ⟨tracker, claims⟩ := Tracker.reset_law
  have pen : PenEngine.reset.PointLaw := PenEngine.pointLaw_of_empty rfl (by simp [PenEngine.reset])
  cases p <;> exact ⟨tracker, claims, pen, RegionTest.reset_latched⟩

theorem resetAll_trackerLaw (s : State) : s.resetAll.TrackerLaw := by
  refine trackerLaw_of_parts BeamFollower.reset_law (by simp [State.resetAll, State.reset]) (fun p => ?_)
    (by simp [State.resetAll, State.reset, NoticeUnit.reset])
  obtain ⟨tracker, claims⟩ := Tracker.reset_law
  have pen (e : PenEngine) : e.linkReset.PointLaw :=
    PenEngine.pointLaw_of_empty rfl (by simp [PenEngine.linkReset, PenEngine.reset])
  cases p <;> exact ⟨tracker, claims, pen _, RegionTest.reset_latched⟩

theorem NoticeUnit.enter_queue (u : NoticeUnit) (r : BitVec 4) (o : Option Pen) (b : NoticeBody) :
    (u.enter r o b).queue = u.queue ++ [{ body := b, channel := (chooseChannel u r).1, pen := o,
                                          rerouted := (chooseChannel u r).2, accepted := 0 }] := rfl

theorem mem_enter_queue {u : NoticeUnit} {r : BitVec 4} {o : Option Pen} {b : NoticeBody} {n : Notice}
    (h : n ∈ (u.enter r o b).queue) : n ∈ u.queue ∨ n.body = b := by
  rw [NoticeUnit.enter_queue, List.mem_append, List.mem_singleton] at h
  rcases h with h | rfl
  · exact .inl h
  · exact .inr rfl

/-- One pen's part of `TrackerLaw` after a write of it. -/
theorem pairLaw_set {α : Type} {Q : α → Prop} {x : Pair α} (hx : ∀ q, Q (x.get q)) {p : Pen} {v : α} (hv : Q v) :
    ∀ q, Q ((x.set p v).get q) := by
  intro q
  by_cases h : q = p
  · subst h; rw [Pair.get_set_same]; exact hv
  · rw [Pair.get_set_other _ h]; exact hx q

theorem trackerLaw_keeps : PartsKeep True (fun _ => True) State.TrackerLaw where
  lawful _ _ h := h
  others _ _ _ _ _ _ h := h
  raiseFault s k c h := by
    unfold State.raiseFault
    dsimp only
    split
    · refine ⟨h.1, h.2.1, fun n hn => ?_⟩
      rcases mem_enter_queue hn with hn | hn
      · exact h.2.2 n hn
      · rw [hn]; exact trivial
    · exact h
  beam s b hb h := trackerLaw_of_parts (hb trivial) h.dots h.2.1 h.2.2
  injection s l hl h := trackerLaw_of_parts h.beam (hl trivial) h.2.1 h.2.2
  segments _ _ _ h := h
  records _ _ _ h := h
  rewrite _ _ _ h := h
  setEcho _ _ _ _ h := h
  channels s u hq _ _ h := ⟨h.1, h.2.1, by show ∀ n ∈ u.queue, _; rw [hq]; exact h.2.2⟩
  menu _ _ _ h := h
  setPen s p e _ he h :=
    ⟨h.1, fun q => ⟨h.tracker q, h.claims q, pairLaw_set (fun r => h.pen r) (he trivial) q, h.latched q⟩, h.2.2⟩
  setTracker s p t _ ht h := by
    have law := pairLaw_set (p := p) (Q := fun u : Tracker => u.Law ∧ u.ClaimLaw) (fun r => ⟨h.tracker r, h.claims r⟩) (ht trivial)
    exact ⟨h.1, fun q => ⟨(law q).1, (law q).2, h.pen q, h.latched q⟩, h.2.2⟩
  setTest s p t _ ht _ h :=
    ⟨h.1, fun q => ⟨h.tracker q, h.claims q, h.pen q,
      pairLaw_set (Q := fun u : RegionTest => u.latched.Law) (fun r => h.latched r) (ht trivial) q⟩, h.2.2⟩
  enter s r o b _ hb _ h := by
    refine ⟨h.1, h.2.1, fun n hn => ?_⟩
    rcases mem_enter_queue hn with hn | hn
    · exact h.2.2 n hn
    · rw [hn]; exact hb trivial
  rewritten s p req hr h := by
    refine ⟨h.1, h.2.1, fun n hn => ?_⟩
    obtain ⟨m, hm, rfl⟩ := List.mem_map.1 hn
    unfold Notice.rewritten
    split
    · exact hr trivial
    · exact h.2.2 m hm
  accepts s n rest hq _ h := by
    have law := h.2.2
    rw [hq, List.forall_mem_cons] at law
    exact ⟨h.1, h.2.1, List.forall_mem_cons.2 law⟩
  frees s n rest hq h := by
    have law := h.2.2
    rw [hq, List.forall_mem_cons] at law
    exact ⟨h.1, h.2.1, law.2⟩

/-- Settles O55: every write keeps the points lawful. -/
theorem stepKeepsThePositions : Obligations.StepKeepsThePositions :=
  (trackerLaw_keeps.actions reset_trackerLaw fun s _ => resetAll_trackerLaw s).step

/-! ### Tables (O58) -/

/-- The laws of tables, part by part. -/
def State.TablesLaw (s : State) : Prop :=
  Table.wf SegEntry.blank s.segments = true ∧ Table.wf RegionRecord.blank s.regions.records = true ∧
    s.menu.Lawful ∧ Table.wf 0 s.notices.levels = true ∧ ∀ p, (s.regionTest p).Lawful

theorem State.tablesLaw_iff (s : State) : s.TablesLaw ↔ s.WindingLaw ∧ s.MenuLaw ∧ s.TableLaw := by
  constructor
  · rintro ⟨hseg, hreg, ⟨hstack, hpages, hwf⟩, hlevels, htests⟩
    exact ⟨fun p => (htests p).1, ⟨hstack, hpages⟩, hseg, hreg, hwf, hlevels, fun p => (htests p).2⟩
  · rintro ⟨hwind, ⟨hstack, hpages⟩, hseg, hreg, hwf, hlevels, htests⟩
    exact ⟨hseg, hreg, ⟨hstack, hpages, hwf⟩, hlevels, fun p => ⟨hwind p, htests p⟩⟩

theorem RegionTest.reset_lawful : RegionTest.reset.Lawful :=
  ⟨fun _ => ⟨show -15 ≤ (0 : Int) by decide, show (0 : Int) ≤ 15 by decide⟩, rfl, rfl⟩

/-- The reset Menu Unit with the page records of a lawful one, or none. -/
theorem MenuUnit.Lawful.reset_pages {u : MenuUnit} (h : u.Lawful) :
    MenuUnit.Lawful { MenuUnit.reset with pages := u.pages } :=
  ⟨⟨Nat.zero_le _, List.nodup_nil, by simp [MenuUnit.reset]⟩, h.2⟩

theorem MenuUnit.reset_lawful : MenuUnit.reset.Lawful := by
  refine ⟨⟨Nat.zero_le _, List.nodup_nil, by simp [MenuUnit.reset]⟩, fun n => ?_, rfl⟩
  rw [show MenuUnit.reset.page n = PageRecord.blank from rfl]
  exact ⟨⟨by simp [PageRecord.blank], fun _ => rfl⟩, by simp [PageRecord.blank]⟩

theorem reset_tablesLaw : State.reset.TablesLaw :=
  ⟨rfl, rfl, MenuUnit.reset_lawful, rfl, fun p => by cases p <;> exact RegionTest.reset_lawful⟩

theorem resetAll_tablesLaw {s : State} (h : s.TablesLaw) : s.resetAll.TablesLaw := by
  obtain ⟨hseg, hreg, hmenu, -, -⟩ := h
  have tests (p : Pen) : (s.resetAll.regionTest p).Lawful := by cases p <;> exact RegionTest.reset_lawful
  unfold State.resetAll at tests ⊢
  cases hk : s.decoder.keep with
  | true =>
    rw [hk] at tests
    exact ⟨Table.wf_mapAll _ _ hseg, hreg, hmenu.reset_pages, rfl, tests⟩
  | false =>
    rw [hk] at tests
    exact ⟨rfl, rfl, MenuUnit.reset_lawful, rfl, tests⟩

theorem tablesLaw_keeps : PartsKeep False (fun _ => True) State.TablesLaw where
  lawful _ hf _ := hf.elim
  others _ _ _ _ _ _ h := h
  raiseFault s k c h := by
    unfold State.raiseFault
    dsimp only
    split
    · exact h
    · exact h
  beam _ _ _ h := h
  injection _ _ _ h := h
  segments _ _ ht h := ⟨ht h.1, h.2⟩
  records _ _ ht h := ⟨h.1, ht h.2.1, h.2.2⟩
  rewrite _ _ _ h := h
  setEcho _ _ _ _ h := h
  channels _ _ _ _ hl h := by
    obtain ⟨hseg, hreg, hmenu, hlevels, htests⟩ := h
    exact ⟨hseg, hreg, hmenu, hl hlevels, htests⟩
  menu _ _ hm h := by
    obtain ⟨hseg, hreg, hmenu, hlevels, htests⟩ := h
    exact ⟨hseg, hreg, hm hmenu, hlevels, htests⟩
  setPen _ _ _ _ _ h := h
  setTracker _ _ _ _ _ h := h
  setTest s p t _ _ ht h := by
    obtain ⟨hseg, hreg, hmenu, hlevels, htests⟩ := h
    exact ⟨hseg, hreg, hmenu, hlevels, pairLaw_set htests (ht (htests p))⟩
  enter _ _ _ _ _ _ _ h := h
  rewritten _ _ _ _ h := h
  accepts _ _ _ _ _ h := h
  frees _ _ _ _ h := h

theorem tablesLaw_actions : ActionsKeep State.TablesLaw :=
  tablesLaw_keeps.actions reset_tablesLaw fun _ h => resetAll_tablesLaw h

/-- Settles O58: every write keeps the tables, the counters and the Menu Unit lawful. -/
theorem stepKeepsTheTables : Obligations.StepKeepsTheTables := by
  intro s t hwind hmenu htable ht
  exact t.tablesLaw_iff.1 (tablesLaw_actions.step s t (s.tablesLaw_iff.2 ⟨hwind, hmenu, htable⟩) ht)

/-! ### The Notice Queue (O59) -/

/-- R144, R154: the law of the queue and of the LRU order. -/
def State.NoticeLaw (s : State) : Prop := s.QueueLaw ∧ s.LruLaw

theorem Notice.length_pos (n : Notice) : 0 < n.length := by simp [Notice.length, Notice.words]

theorem State.entryFree_iff (s : State) : s.entryFree = true ↔ s.notices.queue.length < 30 := by
  unfold State.entryFree State.freeEntries Config.queueEntries Config.keptForFaults
  rw [decide_eq_true_iff]
  omega

/-- R154: the chosen channel is one of the four. -/
theorem chooseChannel_mem {u : NoticeUnit} (h : u.lru.Perm [0, 1, 2, 3]) (r : BitVec 4) :
    (chooseChannel u r).1 ∈ u.lru := by
  have all_mem {c : Nat} (hc : c ∈ keptChannels u r) : c ∈ u.lru := by
    have := (List.mem_filter.1 hc).1
    split at this
    · exact h.mem_iff.2 this
    · exact this
  obtain ⟨-, heq⟩ | ⟨c, heq, hc, -⟩ := chooseChannel_cases u r
  · rw [heq]; exact h.mem_iff.2 (by simp)
  · rw [heq]; exact all_mem hc

/-- R144: a notice that enters the queue, where the bounds leave it a place. -/
theorem noticeLaw_enter {s : State} (h : s.NoticeLaw) (r : BitVec 4) (o : Option Pen) (b : NoticeBody)
    (hlen : s.notices.queue.length < 32) (hplain : s.notices.queue.length < 30 ∨ ∃ k c f l y, b = .fault k c f l y)
    (hpos : ∀ c, b = .position c → ∃ p, o = some p ∧ s.positionQueued p = false) :
    (s.enterNotice r o b).NoticeLaw := by
  obtain ⟨⟨-, hfault, hposition, hhead, htail⟩, hlru⟩ := h
  let n : Notice := { body := b, channel := (chooseChannel s.notices r).1, pen := o
                      rerouted := (chooseChannel s.notices r).2, accepted := 0 }
  have queue : (s.enterNotice r o b).notices.queue = s.notices.queue ++ [n] := rfl
  refine ⟨?_, ?_⟩
  · unfold State.QueueLaw
    rw [queue]
    refine ⟨by simp; omega, ?_, fun p => ?_, ?_, ?_⟩
    · rw [List.countP_append, List.countP_singleton]
      have := List.countP_le_length (p := fun n : Notice => !n.isFault) (l := s.notices.queue)
      rcases hplain with hlt | ⟨k, c, f, l, y, hb⟩
      · split <;> omega
      · have fault : n.isFault = true := by simp only [Notice.isFault, n, hb]
        simpa [fault] using hfault
    · rw [List.countP_append, List.countP_singleton]
      split
      · next hn =>
        simp only [Notice.isPositionOf, n] at hn
        split at hn
        · obtain ⟨q, ho, hq⟩ := hpos _ rfl
          rw [ho] at hn
          have hqp : q = p := by simpa using hn
          subst hqp
          have none_queued : s.notices.queue.countP (Notice.isPositionOf q) = 0 := by
            rw [List.countP_eq_zero]
            simpa [State.positionQueued] using hq
          omega
        · cases hn
      · exact hposition p
    · cases hq : s.notices.queue with
      | nil => intro m hm; cases hm; exact n.length_pos
      | cons m rest => rw [hq] at hhead; exact hhead
    · intro m hm
      cases hq : s.notices.queue with
      | nil => rw [hq] at hm; cases hm
      | cons x rest =>
        rw [hq] at hm htail
        rcases List.mem_append.1 (show m ∈ rest ++ [n] from hm) with hm | hm
        · exact htail m hm
        · rw [List.mem_singleton.1 hm]
  · have hmem := chooseChannel_mem hlru r
    exact (mostRecent_perm (hlru.nodup_iff.2 (by decide)) hmem).trans hlru

theorem NoticeUnit.reset_queueLaw {s : State} (h : s.notices = NoticeUnit.reset) : s.NoticeLaw := by
  unfold State.NoticeLaw State.QueueLaw State.LruLaw
  rw [h]
  exact ⟨⟨by decide, by decide, fun p => Nat.zero_le 1, by simp [NoticeUnit.reset], by simp [NoticeUnit.reset]⟩, List.Perm.refl _⟩

/-- A law of the queue holds of another queue of as many notices of each sort, read from the head alike. -/
theorem queueLaw_of_queue {s t : State} (h : s.QueueLaw) (hlen : t.notices.queue.length ≤ s.notices.queue.length)
    (hcount : ∀ f : Notice → Bool, (f = (fun n => !n.isFault) ∨ ∃ p, f = Notice.isPositionOf p) →
      t.notices.queue.countP f ≤ s.notices.queue.countP f)
    (hhead : ∀ n ∈ t.notices.queue.head?, n.accepted < n.length)
    (htail : ∀ n ∈ t.notices.queue.tail, n.accepted = 0) : t.QueueLaw := by
  obtain ⟨h1, h2, h3, -, -⟩ := h
  exact ⟨hlen.trans h1, (hcount _ (.inl rfl)).trans h2, fun p => (hcount _ (.inr ⟨p, rfl⟩)).trans (h3 p), hhead, htail⟩

/-- R148: a rewrite in place keeps what the law reads of a notice. -/
theorem Notice.rewritten_same (p : Pen) (req : PositionClaim) (n : Notice) :
    (n.rewritten p req).isFault = n.isFault ∧ (∀ q, (n.rewritten p req).isPositionOf q = n.isPositionOf q) ∧
      (n.rewritten p req).accepted = n.accepted ∧ (n.accepted < n.length → n.accepted < (n.rewritten p req).length) := by
  unfold Notice.rewritten
  split
  · next hr =>
    unfold Notice.rewritable at hr
    split at hr
    · next c hb =>
      simp only [Bool.and_eq_true] at hr
      refine ⟨by simp [Notice.isFault, hb], fun q => by simp [Notice.isPositionOf, hb], rfl, fun _ => ?_⟩
      have : n.accepted = 0 := by simpa using hr.1.2
      rw [this]
      exact Notice.length_pos _
    · cases hr
  · exact ⟨rfl, fun _ => rfl, rfl, fun h => h⟩

theorem noticeLaw_keeps : PartsKeep False (fun _ => True) State.NoticeLaw where
  lawful _ hf _ := hf.elim
  others _ _ _ _ _ _ h := h
  raiseFault s k c h := by
    unfold State.raiseFault
    dsimp only
    split
    · next room =>
      exact noticeLaw_enter h _ _ _ (s.faultRoom_iff.1 room) (.inr ⟨_, _, _, _, _, rfl⟩) (by simp)
    · exact h
  beam _ _ _ h := h
  injection _ _ _ h := h
  segments _ _ _ h := h
  records _ _ _ h := h
  rewrite _ _ _ h := h
  setEcho _ _ _ _ h := h
  channels s u hq hl _ h := by
    unfold State.NoticeLaw State.QueueLaw State.LruLaw
    dsimp only
    rw [hq, hl]
    exact h
  menu _ _ _ h := h
  setPen _ _ _ _ _ h := h
  setTracker _ _ _ _ _ h := h
  setTest _ _ _ _ _ _ h := h
  enter s r o b free _ hp h := by
    have hlen := s.entryFree_iff.1 free
    exact noticeLaw_enter h r o b (by omega) (.inl hlen) hp
  rewritten s p req _ h := by
    obtain ⟨hqueue, hlru⟩ := h
    have hhead := hqueue.2.2.2.1
    have htail := hqueue.2.2.2.2
    refine ⟨queueLaw_of_queue hqueue (by simp) (fun f hf => ?_) ?_ ?_, hlru⟩
    · rw [List.countP_map]
      refine (List.countP_congr fun n _ => ?_).le
      obtain ⟨hfault, hpos, -, -⟩ := n.rewritten_same p req
      rcases hf with rfl | ⟨q, rfl⟩
      · simp [hfault]
      · simp [hpos q]
    · intro m hm
      simp only [List.head?_map] at hm
      obtain ⟨n, hn, rfl⟩ := Option.mem_map.1 hm
      obtain ⟨-, -, hacc, hlen⟩ := n.rewritten_same p req
      rw [hacc]; exact hlen (hhead n hn)
    · intro m hm
      rw [← List.map_tail] at hm
      obtain ⟨n, hn, rfl⟩ := List.mem_map.1 hm
      rw [(n.rewritten_same p req).2.2.1]; exact htail n hn
  accepts s n rest hq more h := by
    obtain ⟨hqueue, hlru⟩ := h
    have htail := hqueue.2.2.2.2
    rw [hq] at htail
    refine ⟨queueLaw_of_queue hqueue (by simp [hq]) (fun f hf => ?_)
      (fun m hm => by cases hm; exact more) htail, hlru⟩
    rw [hq, List.countP_cons, List.countP_cons]
    rcases hf with rfl | ⟨q, rfl⟩
    · exact Nat.le_refl _
    · exact Nat.le_refl _
  frees s n rest hq h := by
    obtain ⟨hqueue, hlru⟩ := h
    have htail := hqueue.2.2.2.2
    rw [hq] at htail
    refine ⟨queueLaw_of_queue hqueue (by simp [hq]) (fun f _ => ?_) (fun m hm => ?_) (fun m hm => ?_), hlru⟩
    · rw [hq, List.countP_cons]; exact Nat.le_add_right _ _
    · have : m.accepted = 0 := htail m (List.mem_of_mem_head? hm)
      rw [this]; exact m.length_pos
    · exact htail m (List.mem_of_mem_tail hm)

theorem noticeLaw_actions : ActionsKeep State.NoticeLaw :=
  noticeLaw_keeps.actions (NoticeUnit.reset_queueLaw rfl) fun _ _ => NoticeUnit.reset_queueLaw rfl

/-- Settles O59: every write keeps the bounds of the queue, and every entry moves one channel of the LRU order. -/
theorem stepKeepsTheQueue : Obligations.StepKeepsTheQueue :=
  fun s t hq hl ht => noticeLaw_actions.step s t ⟨hq, hl⟩ ht

end Sys2Proof.Machine
end

section
/-! The laws of the pens (O57). An action of one pen's blocks leaves the other pen as it was,
and of its own pen it is enough to know the few fields that the laws read. -/

namespace Sys2Proof.Machine

/-! ### The other pen (4.1, R93, R123) -/

/-- Pen q's engine, tracker, region test and echo are the same in both states. -/
structure SamePen (q : Pen) (s t : State) : Prop where
  pen : t.pen q = s.pen q
  tracker : t.tracker q = s.tracker q
  test : t.regionTest q = s.regionTest q
  echo : t.rewrite.echo.get q = s.rewrite.echo.get q

theorem SamePen.refl (q : Pen) (s : State) : SamePen q s s := ⟨rfl, rfl, rfl, rfl⟩

theorem SamePen.trans {q : Pen} {s t u : State} (h : SamePen q s t) (h' : SamePen q t u) : SamePen q s u :=
  ⟨h'.pen.trans h.pen, h'.tracker.trans h.tracker, h'.test.trans h.test, h'.echo.trans h.echo⟩

/-- Every write of the other pen's parts, and of what the pens share, leaves pen q as it was. -/
theorem samePen_keeps (q : Pen) (s : State) : PartsKeep False (· ≠ q) (SamePen q s) where
  lawful _ hf _ := hf.elim
  others _ _ _ _ _ _ h := ⟨h.pen, h.tracker, h.test, h.echo⟩
  raiseFault t k c h := by
    refine h.trans ⟨?_, ?_, ?_, ?_⟩ <;> simp [State.pen, State.tracker, State.regionTest]
  beam _ _ _ h := ⟨h.pen, h.tracker, h.test, h.echo⟩
  injection _ _ _ h := ⟨h.pen, h.tracker, h.test, h.echo⟩
  segments _ _ _ h := ⟨h.pen, h.tracker, h.test, h.echo⟩
  records _ _ _ h := ⟨h.pen, h.tracker, h.test, h.echo⟩
  rewrite t r hr h := h.trans ⟨rfl, rfl, rfl, congrArg (Pair.get · q) hr⟩
  setEcho t p hp v h := h.trans ⟨rfl, rfl, rfl, Pair.get_set_other _ hp.symm v⟩
  channels _ _ _ _ _ h := ⟨h.pen, h.tracker, h.test, h.echo⟩
  menu _ _ _ h := ⟨h.pen, h.tracker, h.test, h.echo⟩
  setPen t p e hp _ h := h.trans ⟨Pair.get_set_other _ hp.symm e, rfl, rfl, rfl⟩
  setTracker t p u hp _ h := h.trans ⟨rfl, Pair.get_set_other _ hp.symm u, rfl, rfl⟩
  setTest t p u hp _ _ h := h.trans ⟨rfl, rfl, Pair.get_set_other _ hp.symm u, rfl⟩
  enter _ _ _ _ _ _ _ h := ⟨h.pen, h.tracker, h.test, h.echo⟩
  rewritten _ _ _ _ h := ⟨h.pen, h.tracker, h.test, h.echo⟩
  accepts _ _ _ _ _ h := ⟨h.pen, h.tracker, h.test, h.echo⟩
  frees _ _ _ _ h := ⟨h.pen, h.tracker, h.test, h.echo⟩

/-! ### What the laws read of a pen -/

/-- What `OffPenLaw`, `RegionAttemptLaw` and `LockLaw` read of one pen. -/
structure PenView where
  mode : Mode
  attempt : AttemptState
  track : TrackState
  candidates : List Candidate
  exclusions : List Key
  echo : Option Nat
  phase : TestPhase

def State.view (s : State) (p : Pen) : PenView :=
  { mode := (s.pen p).record.mode, attempt := (s.pen p).attempt, track := (s.tracker p).state
    candidates := (s.pen p).candidates, exclusions := (s.pen p).exclusions, echo := s.rewrite.echo.get p
    phase := (s.regionTest p).phase }

/-- R69, R117, R118 of one pen. -/
def PenView.Law (v : PenView) : Prop :=
  ((v.mode = .off → v.attempt = .off ∧ v.track = .off ∧ v.candidates = [] ∧ v.exclusions = [] ∧ v.echo = none) ∧
      (v.attempt = .off → v.mode = .off)) ∧
    (v.phase = .waiting ↔ v.attempt = .regionWait) ∧ (v.phase = .counting ↔ v.attempt = .regionCount) ∧
    (v.attempt = .regionWait ∨ v.attempt = .regionCount → v.track = .locked)

/-- R131: the menu lock, for pens of the modes given. -/
def MenuUnit.LockOk (u : MenuUnit) (mode : Pen → Mode) : Prop :=
  (u.stack.length < 2 → u.owner = none) ∧ ∀ p, u.owner = some p → mode p ≠ .off

theorem State.penLaw_iff (s : State) :
    s.PenLaw ↔ (∀ p, (s.view p).Law) ∧ s.menu.LockOk fun p => (s.view p).mode := Iff.rfl

theorem SamePen.view {q : Pen} {s t : State} (h : SamePen q s t) : t.view q = s.view q := by
  simp only [State.view, h.pen, h.tracker, h.test, h.echo]

/-- `PenLaw` after an action of pen p that keeps its mode. -/
theorem State.PenLaw.acted {s t : State} {p : Pen} (h : s.PenLaw) (same : ∀ q, p ≠ q → SamePen q s t)
    (mode : (t.view p).mode = (s.view p).mode) (law : (t.view p).Law)
    (lock : s.menu.LockOk (fun q => (s.view q).mode) → t.menu.LockOk fun q => (s.view q).mode) : t.PenLaw := by
  obtain ⟨hlaw, hlock⟩ := s.penLaw_iff.1 h
  have modes : (fun q => (t.view q).mode) = fun q => (s.view q).mode := by
    funext q
    by_cases hq : p = q
    · subst hq; exact mode
    · rw [(same q hq).view]
  refine t.penLaw_iff.2 ⟨fun q => ?_, modes ▸ lock hlock⟩
  by_cases hq : p = q
  · subst hq; exact law
  · rw [(same q hq).view]; exact hlaw q

namespace PenView

variable {v : PenView}

/-- The attempt is a region attempt. -/
def InRegion (v : PenView) : Prop := v.attempt = .regionWait ∨ v.attempt = .regionCount

/-- A pen that is not OFF, with no region attempt and no test. -/
def Rests (v : PenView) : Prop := v.mode ≠ .off ∧ v.attempt ≠ .off ∧ ¬ v.InRegion ∧ v.phase = .idle

theorem Rests.law (h : v.Rests) : v.Law := by
  obtain ⟨hmode, hoff, hregion, hidle⟩ := h
  have hwait : v.attempt ≠ .regionWait := fun h => hregion (.inl h)
  have hcount : v.attempt ≠ .regionCount := fun h => hregion (.inr h)
  simp [Law, hmode, hoff, hwait, hcount, hidle]

theorem Law.idle (h : v.Law) (hr : ¬ v.InRegion) : v.phase = .idle := by
  obtain ⟨-, hwait, hcount, -⟩ := h
  cases hp : v.phase with
  | idle => rfl
  | waiting => exact absurd (.inl (hwait.1 hp)) hr
  | counting => exact absurd (.inr (hcount.1 hp)) hr

theorem Law.mode_ne_off (h : v.Law) (ha : v.attempt ≠ .off) : v.mode ≠ .off := fun hm => ha (h.1.1 hm).1

theorem Law.rests (h : v.Law) (ha : v.attempt ≠ .off) (hr : ¬ v.InRegion) : v.Rests :=
  ⟨h.mode_ne_off ha, ha, hr, h.idle hr⟩

/-- R64: what the end of an attempt leaves. -/
def missed (v : PenView) (next : AttemptState) : PenView :=
  { v with attempt := next, candidates := [], exclusions := [], echo := none, phase := .idle }

/-- R67: what a tracker that leaves LOCKED leaves of its pen. -/
def told (v : PenView) : PenView :=
  match v.attempt with
  | .regionWait => v.missed (.settled none false)
  | .regionCount => v.missed (.settled none false)
  | .off | .ready | .gathering | .holding _ | .settled _ _ => v

theorem told_of_not_inRegion (h : ¬ v.InRegion) : v.told = v := by
  unfold told
  split
  · next ha => exact absurd (.inl ha) h
  · next ha => exact absurd (.inr ha) h
  all_goals rfl

theorem told_not_inRegion : ¬ v.told.InRegion := by
  unfold told
  split <;> simp_all [InRegion, missed]

@[simp] theorem told_mode : v.told.mode = v.mode := by unfold told; split <;> rfl

/-- R101: the law after the tracker's state changes and the pen is told. -/
theorem Law.told_track (h : v.Law) {track : TrackState} (ht : v.mode = .off → track = .off) :
    (PenView.told { v with track := track }).Law := by
  obtain ⟨⟨hoff, hmode⟩, hwait, hcount, htrack⟩ := h
  by_cases hr : v.InRegion
  · have used : v.mode ≠ .off := fun hm => by
      have := (hoff hm).1
      rcases hr with hr | hr <;> rw [this] at hr <;> cases hr
    have rests : ((PenView.missed { v with track := track } (.settled none false))).Rests :=
      ⟨used, by simp [missed], by simp [missed, InRegion], rfl⟩
    unfold told
    rcases hr with hr | hr <;> simp only [hr] <;> simpa [hr] using rests.law
  · rw [told_of_not_inRegion (v := { v with track := track }) hr]
    refine ⟨⟨fun hm => ?_, hmode⟩, hwait, hcount, fun hin => absurd hin hr⟩
    obtain ⟨h1, -, h3, h4, h5⟩ := hoff hm
    exact ⟨h1, ht hm, h3, h4, h5⟩

/-- Outside a region attempt the tracker's state matters only to an OFF pen. -/
theorem Law.track (h : v.Law) (hr : ¬ v.InRegion) {track : TrackState} (ht : v.mode = .off → track = .off) :
    Law { v with track := track } := by
  have := h.told_track ht
  rwa [told_of_not_inRegion (v := { v with track := track }) hr] at this

end PenView

/-! ### The view after each action -/

section
variable (s : State) (p q : Pen)

@[simp] theorem State.view_setPen (e : PenEngine) : (s.setPen p e).view p =
    { s.view p with mode := e.record.mode, attempt := e.attempt, candidates := e.candidates
                    exclusions := e.exclusions } := by simp [State.view]

@[simp] theorem State.view_setTracker (t : Tracker) : (s.setTracker p t).view p =
    { s.view p with track := t.state } := by simp [State.view]

@[simp] theorem State.view_setRegionTest (t : RegionTest) : (s.setRegionTest p t).view p =
    { s.view p with phase := t.phase } := by simp [State.view]

@[simp] theorem State.view_setEcho (v : Option Nat) : (s.setEcho p v).view p = { s.view p with echo := v } := by
  simp [State.view]

@[simp] theorem State.view_enterNotice (r : BitVec 4) (o : Option Pen) (b : NoticeBody) :
    (s.enterNotice r o b).view p = s.view p := rfl

@[simp] theorem State.view_dropDots : (s.dropDots q).view p = s.view p := rfl

@[simp] theorem State.view_menu (m : MenuUnit) : State.view { s with menu := m } p = s.view p := rfl

@[simp] theorem State.view_markPicked (n : Nat) : (s.markPicked q n).view p = s.view p := by
  unfold State.markPicked; split <;> rfl

@[simp] theorem State.view_menuPick (n k : Nat) (c m : Bool) : (s.menuPick q n k c m).view p = s.view p := rfl

@[simp] theorem State.rewrite_endMiss (reason : MissReason) (next : AttemptState) :
    (s.endMiss p reason next).rewrite = { s.rewrite with echo := s.rewrite.echo.set p none } := by
  simp [State.endMiss]

@[simp] theorem State.view_endMiss (reason : MissReason) (next : AttemptState) :
    (s.endMiss p reason next).view p = (s.view p).missed next := by
  simp [State.view, PenView.missed, State.tracker]

@[simp] theorem State.view_notifyUnlocked : (s.notifyUnlocked p).view p = (s.view p).told := by
  have told : (s.view p).told = match (s.pen p).attempt with
      | .regionWait => (s.view p).missed (.settled none false)
      | .regionCount => (s.view p).missed (.settled none false)
      | .off | .ready | .gathering | .holding _ | .settled _ _ => s.view p := rfl
  rw [told]
  unfold State.notifyUnlocked
  cases (s.pen p).attempt <;> simp

theorem State.view_notifyIfLocked (b : TrackState) :
    (s.notifyIfLocked p b).view p = if b = .locked then (s.view p).told else s.view p := by
  unfold State.notifyIfLocked
  split <;> simp

@[simp] theorem State.view_trackRequest (c : TrackClaim) : (s.trackRequest p c).view p = s.view p := by
  unfold State.trackRequest
  dsimp only
  split
  · rfl
  · rw [State.view_setTracker]; rfl

@[simp] theorem State.view_placePosition (c : PositionClaim) : (s.placePosition p c).view p = s.view p := by
  unfold State.placePosition
  dsimp only
  split
  · rfl
  · split
    · rw [State.view_setTracker]; rfl
    · split
      · rfl
      · rw [State.view_setTracker]; rfl

@[simp] theorem State.view_positionRequest (c : PositionClaim) : (s.positionRequest p c).view p = s.view p := by
  unfold State.positionRequest
  dsimp only
  split
  · rfl
  · rw [State.view_setTracker]
    exact s.view_placePosition p c

@[simp] theorem State.view_finishDelivery (o : LastOutcome) (key : Option Key) :
    (s.finishDelivery p o key).view p = { s.view p with attempt := (s.pen p).afterDelivery key } := by
  simp [State.finishDelivery, State.view]

theorem State.view_coastLimitReached :
    (s.coastLimitReached p).view p =
      if (s.tracker p).state = .coasting ∧ (s.tracker p).missCount = (s.tracker p).coastLimit then
        { s.view p with track := .seeking }
      else s.view p := by
  unfold State.coastLimitReached
  dsimp only
  split <;> simp

end

/-! ### What a delivery leaves of the pen -/

theorem PenEngine.afterDelivery_cases (e : PenEngine) (key : Option Key) :
    (∃ k, e.afterDelivery key = .settled k false) ∨ e.afterDelivery key = .ready := by
  unfold PenEngine.afterDelivery
  split
  · exact .inl ⟨_, rfl⟩
  all_goals
    split
    · exact .inl ⟨_, rfl⟩
    · exact .inr rfl

theorem State.view_dragSeed (s : State) (p : Pen) (strike : Point) (hr : ¬ (s.view p).InRegion) :
    (s.dragSeed p strike).view p = { s.view p with track := .seeking } := by
  unfold State.dragSeed
  dsimp only
  rw [State.view_notifyIfLocked, State.view_setTracker]
  split
  · exact PenView.told_of_not_inRegion (v := { s.view p with track := .seeking }) hr
  · rfl

/-- R67: outside a region attempt the notification does nothing. -/
theorem State.notifyIfLocked_of_not_inRegion (s : State) (p : Pen) (b : TrackState) (hr : ¬ (s.view p).InRegion) :
    s.notifyIfLocked p b = s := by
  unfold State.notifyIfLocked
  split
  · obtain ⟨heq, -⟩ | ⟨-, hin⟩ := s.notifyUnlocked_cases p
    · exact heq
    · exact absurd hin hr
  · rfl

@[simp] theorem State.pen_markPicked (s : State) (p q : Pen) (n : Nat) : (s.markPicked q n).pen p = s.pen p := by
  unfold State.markPicked; split <;> rfl

@[simp] theorem State.regionTest_markPicked (s : State) (p q : Pen) (n : Nat) :
    (s.markPicked q n).regionTest p = s.regionTest p := by
  unfold State.markPicked; split <;> rfl

/-- R63: a delivery ends with the write of the outcome; before it, neither the pen engine nor its region test has
changed. Outside a region attempt a drag seed tells the pen nothing. -/
theorem State.deliver_eq_finishDelivery (s : State) (p : Pen) (o : HeldOutcome)
    (hr : ¬ (s.view p).InRegion ∨ ∃ r point sat, o = .region r point sat) :
    ∃ t last key, s.deliver p o = State.finishDelivery t p last key ∧ t.pen p = s.pen p ∧
      t.regionTest p = s.regionTest p := by
  have pick (key : Key) (strike : Point) (cycled : Bool) (hr : ¬ (s.view p).InRegion) :
      ∃ t last k, s.deliverPick p key strike cycled = State.finishDelivery t p last k ∧ t.pen p = s.pen p ∧
        t.regionTest p = s.regionTest p := by
    refine ⟨_, _, _, rfl, ?_⟩
    split
    · unfold State.dragSeed
      dsimp only
      rw [State.notifyIfLocked_of_not_inRegion _ _ _ (by simpa [PenView.InRegion] using hr)]
      simp
    · simp
  unfold State.deliver
  split
  · exact ⟨_, _, _, rfl, rfl, rfl⟩
  · have hr : ¬ (s.view p).InRegion := by
      rcases hr with hr | ⟨r, point, sat, ho⟩
      · exact hr
      · cases ho
    split
    · exact ⟨_, _, _, rfl, by rw [State.pen_markPicked]; rfl, by rw [State.regionTest_markPicked]; rfl⟩
    · exact pick _ _ _ hr
    · exact pick _ _ _ hr

/-- R63: a delivery changes the attempt state and the last outcome of its pen, and nothing else of the engine. -/
theorem State.deliver_pen (s : State) (p : Pen) (o : HeldOutcome)
    (hr : ¬ (s.view p).InRegion ∨ ∃ r point sat, o = .region r point sat) :
    ∃ key last, (s.deliver p o).pen p =
      { s.pen p with attempt := (s.pen p).afterDelivery key, lastOutcome := last } := by
  obtain ⟨t, last, key, heq, hpen, -⟩ := s.deliver_eq_finishDelivery p o hr
  exact ⟨key, last, by rw [heq]; simp [State.finishDelivery, hpen]⟩

/-- R63: a delivery leaves the region test of its pen as it was. -/
theorem State.deliver_regionTest (s : State) (p : Pen) (o : HeldOutcome)
    (hr : ¬ (s.view p).InRegion ∨ ∃ r point sat, o = .region r point sat) :
    (s.deliver p o).regionTest p = s.regionTest p := by
  obtain ⟨t, last, key, heq, -, htest⟩ := s.deliver_eq_finishDelivery p o hr
  rw [heq, ← htest]
  rfl

/-- The pen rests after a delivery. -/
theorem State.deliver_rests {s : State} {p : Pen} {o : HeldOutcome} (hmode : (s.view p).mode ≠ .off)
    (hphase : (s.view p).phase = .idle) (hr : ¬ (s.view p).InRegion ∨ ∃ r point sat, o = .region r point sat) :
    ((s.deliver p o).view p).Rests ∧ ((s.deliver p o).view p).mode = (s.view p).mode := by
  obtain ⟨key, last, hpen⟩ := s.deliver_pen p o hr
  have htest := s.deliver_regionTest p o hr
  unfold PenView.Rests PenView.InRegion State.view at *
  rw [hpen, htest]
  obtain ⟨k, ha⟩ | ha := (s.pen p).afterDelivery_cases key <;> simp_all

theorem State.claimOutcome_rests {s : State} {p : Pen} {o : HeldOutcome} (hmode : (s.view p).mode ≠ .off)
    (hphase : (s.view p).phase = .idle) (hr : ¬ (s.view p).InRegion ∨ ∃ r point sat, o = .region r point sat) :
    ((s.claimOutcome p o).view p).Rests ∧ ((s.claimOutcome p o).view p).mode = (s.view p).mode := by
  unfold State.claimOutcome
  split
  · exact State.deliver_rests hmode hphase hr
  · rw [State.view_setPen]
    exact ⟨⟨hmode, by simp, by simp [PenView.InRegion], hphase⟩, rfl⟩

/-! ### The menu lock (R131) -/

theorem MenuUnit.pick_lockOk {u : MenuUnit} {mode : Pen → Mode} (h : u.LockOk mode) {p : Pen} (hp : mode p ≠ .off)
    (n k : Nat) : (u.pick p n k).1.LockOk mode := by
  unfold MenuUnit.pick
  split
  · exact h
  · split
    · exact h
    · split
      · unfold MenuUnit.lockFor MenuUnit.LockOk
        dsimp only
        refine ⟨fun hlt => if_neg (by omega), fun q hq => ?_⟩
        split at hq
        · cases hq; exact hp
        · cases hq
      · exact h

@[simp] theorem MenuUnit.perform_owner (u : MenuUnit) (n k : Nat) (item : Item) :
    (u.perform n k item).1.owner = u.owner := by
  unfold MenuUnit.perform
  split
  · unfold MenuUnit.descend
    repeat' split
    all_goals rfl
  · unfold MenuUnit.ascend
    split <;> rfl
  · rfl
  · rfl

/-- R141: a forced item never gives the lock, and takes it away at depth 0 or 1. -/
theorem MenuUnit.lockForced_lockOk {u : MenuUnit} {mode : Pen → Mode} (h : u.LockOk mode) (n k : Nat) (item : Item) :
    (u.perform n k item).1.lockForced.LockOk mode := by
  unfold MenuUnit.lockForced
  split
  · next hdepth =>
    refine ⟨fun hlt => absurd hdepth (by omega), fun p hp => h.2 p ?_⟩
    rwa [MenuUnit.perform_owner] at hp
  · exact ⟨fun _ => rfl, fun p hp => by cases hp⟩

/-- A delivery leaves the Menu Unit as it was, or is a pick of its pen. -/
theorem State.deliver_menu_cases (s : State) (p : Pen) (o : HeldOutcome) :
    (s.deliver p o).menu = s.menu ∨ ∃ n k, (s.deliver p o).menu = (s.menu.pick p n k).1 := by
  have pick (key : Key) (strike : Point) (cycled : Bool) : (s.deliverPick p key strike cycled).menu = s.menu := by
    unfold State.deliverPick
    dsimp only
    split <;> simp
  unfold State.deliver
  split
  · exact .inl rfl
  · split
    · next n k _ =>
      refine .inr ⟨n, k, ?_⟩
      unfold State.deliverMenu
      rw [State.finishDelivery_menu, State.markPicked_menu]
      rfl
    · exact .inl (pick _ _ _)
    · exact .inl (pick _ _ _)

theorem State.deliver_lockOk {s : State} {p : Pen} {o : HeldOutcome} {mode : Pen → Mode} (hp : mode p ≠ .off)
    (h : s.menu.LockOk mode) : (s.deliver p o).menu.LockOk mode := by
  obtain heq | ⟨n, k, heq⟩ := s.deliver_menu_cases p o
  · rw [heq]; exact h
  · rw [heq]; exact MenuUnit.pick_lockOk h hp n k

theorem State.claimOutcome_lockOk {s : State} {p : Pen} {o : HeldOutcome} {mode : Pen → Mode} (hp : mode p ≠ .off)
    (h : s.menu.LockOk mode) : (s.claimOutcome p o).menu.LockOk mode := by
  unfold State.claimOutcome
  split
  · exact State.deliver_lockOk hp h
  · exact h

/-! ### Each action keeps the law of the pens (O57) -/

namespace State.PenLaw

variable {s : State} (h : s.PenLaw) (p : Pen)
include h

theorem law : (s.view p).Law := (s.penLaw_iff.1 h).1 p

theorem lock : s.menu.LockOk fun q => (s.view q).mode := (s.penLaw_iff.1 h).2

/-- An action after which the pen rests, in the mode that it had. -/
theorem rested {t : State} (same : ∀ q, p ≠ q → SamePen q s t)
    (rests : (t.view p).Rests ∧ (t.view p).mode = (s.view p).mode)
    (hlock : s.menu.LockOk (fun q => (s.view q).mode) → t.menu.LockOk fun q => (s.view q).mode) : t.PenLaw :=
  h.acted same rests.2 rests.1.law hlock

theorem endMiss (reason : MissReason) {next : AttemptState} (ha : (s.pen p).attempt ≠ .off)
    (hn : next = .ready ∨ ∃ k b, next = .settled k b) : (s.endMiss p reason next).PenLaw := by
  have hnext : ∀ o, next ≠ .holding o := by rcases hn with rfl | ⟨k, b, rfl⟩ <;> simp
  refine h.rested p (fun q hq => (samePen_keeps q s).endMiss s p hq reason next hnext (.refl q s)) ?_ ?_
  · rw [State.view_endMiss]
    have used : (s.view p).mode ≠ .off := (h.law p).mode_ne_off ha
    rcases hn with rfl | ⟨k, b, rfl⟩ <;>
      exact ⟨⟨used, by simp [PenView.missed], by simp [PenView.missed, PenView.InRegion], rfl⟩, rfl⟩
  · rw [State.endMiss_menu]; exact id

/-- R101: a tracker takes another state, and tells its pen when it was LOCKED. `mid` is what comes between. -/
theorem tracked {t mid : State} (same : ∀ q, p ≠ q → SamePen q s t) (menu : t.menu = s.menu)
    (track : TrackState) (hoff : (s.view p).mode = .off → track = .off)
    (hmid : mid.view p = { s.view p with track := track })
    (ht : t = mid.notifyIfLocked p (s.tracker p).state) : t.PenLaw := by
  have view : t.view p = if (s.tracker p).state = .locked then
      PenView.told { s.view p with track := track } else { s.view p with track := track } := by
    rw [ht, State.view_notifyIfLocked, hmid]
  refine h.acted same ?_ ?_ (by rw [menu]; exact id)
  · rw [view]; split <;> simp
  · rw [view]
    split
    · exact (h.law p).told_track hoff
    · next hl => exact (h.law p).track (fun hr => hl ((h.law p).2.2.2 hr)) hoff

end State.PenLaw

theorem penLaw_startAttempt {s : State} (h : s.PenLaw) {p : Pen} (ha : (s.pen p).attempt = .ready) :
    (s.startAttempt p).PenLaw := by
  have rests : (s.view p).Rests :=
    (h.law p).rests (by simp [State.view, ha]) (by simp [State.view, PenView.InRegion, ha])
  have same (q : Pen) (hq : p ≠ q) : SamePen q s (s.startAttempt p) :=
    (samePen_keeps q s).startAttempt s p hq (.refl q s)
  obtain ⟨used, -, -, idle⟩ := rests
  unfold State.startAttempt at same ⊢
  cases hm : (s.pen p).record.mode with
  | off => exact h
  | continuous => exact h
  | press =>
    simp only [hm] at same ⊢
    refine h.rested p same ?_ id
    rw [State.view_setPen]
    exact ⟨⟨used, by simp [PenEngine.started], by simp [PenEngine.started, PenView.InRegion], idle⟩, rfl⟩
  | region =>
    simp only [hm] at same ⊢
    have used' : Mode.region ≠ .off := by decide
    split at same
    · next hl =>
      rw [if_pos hl]
      refine h.acted same (by rw [State.view_setRegionTest, State.view_setPen]; rfl) ?_ id
      rw [State.view_setRegionTest, State.view_setPen]
      simp [PenView.Law, PenEngine.started, hm, State.view, hl]
    · next hl =>
      rw [if_neg hl]
      refine h.rested p same ?_ (by simp)
      rw [State.view_endMiss, State.view_setPen]
      exact ⟨⟨used, by simp [PenView.missed], by simp [PenView.missed, PenView.InRegion], rfl⟩, rfl⟩

theorem penLaw_setTip {s : State} (h : s.PenLaw) (p : Pen) (tip : Tip) :
    (s.setPen p { s.pen p with tip := tip }).PenLaw := by
  refine h.acted (fun q hq => (samePen_keeps q s).setTip s p hq tip (.refl q s)) ?_ ?_ id
  · rw [State.view_setPen]; rfl
  · rw [State.view_setPen]; exact h.law p

/-! ### A frame close (R60, R98) -/

/-- R84: the state of a weighing, with its list and its exclusion list, before its end is known. -/
def State.weighed (s : State) (p : Pen) : State :=
  s.setPen p { s.pen p with
    candidates := s.weighedList p, frameCount := (s.pen p).frameCount + 1
    exclusions := ((s.pen p).qualify (s.weighedList p)).2 }

/-- R84: the three ends of a weighing. -/
theorem State.weigh_cases (s : State) (p : Pen) :
    (∃ winner, s.rankedFirst (s.pen p).record.w ((s.pen p).qualify (s.weighedList p)).1 = some winner ∧
        s.weigh p = (s.weighed p).confirm p winner ((s.pen p).qualify (s.weighedList p)).2) ∨
      s.rankedFirst (s.pen p).record.w ((s.pen p).qualify (s.weighedList p)).1 = none ∧
        ((s.pen p).frameCount + 1 = (s.pen p).record.span ∧
            s.weigh p = (s.weighed p).endMiss p .span (s.pen p).record.mode.afterSpan ∨
          (s.pen p).frameCount + 1 ≠ (s.pen p).record.span ∧
            s.weigh p = (s.weighed p).writeEcho p
              ((s.rankedFirst (s.pen p).record.w (s.weighedList p)).map (·.key.segment))) := by
  have ends : s.weigh p =
      match s.rankedFirst (s.pen p).record.w ((s.pen p).qualify (s.weighedList p)).1 with
      | some winner => (s.weighed p).confirm p winner ((s.pen p).qualify (s.weighedList p)).2
      | none =>
        if (s.pen p).frameCount + 1 = (s.pen p).record.span then
          (s.weighed p).endMiss p .span (s.pen p).record.mode.afterSpan
        else (s.weighed p).writeEcho p ((s.rankedFirst (s.pen p).record.w (s.weighedList p)).map (·.key.segment)) := rfl
  rw [ends]
  cases s.rankedFirst (s.pen p).record.w ((s.pen p).qualify (s.weighedList p)).1 with
  | some winner => exact .inl ⟨winner, rfl, rfl⟩
  | none =>
    by_cases hspan : (s.pen p).frameCount + 1 = (s.pen p).record.span
    · exact .inr ⟨rfl, .inl ⟨hspan, if_pos hspan⟩⟩
    · exact .inr ⟨rfl, .inr ⟨hspan, if_neg hspan⟩⟩

theorem Mode.afterSpan_cases (m : Mode) : m.afterSpan = .ready ∨ ∃ k b, m.afterSpan = .settled k b := by
  unfold Mode.afterSpan
  split
  · exact .inl rfl
  all_goals exact .inr ⟨_, _, rfl⟩

@[simp] theorem State.view_weighed (s : State) (p : Pen) : (s.weighed p).view p =
    { s.view p with candidates := s.weighedList p
                    exclusions := ((s.pen p).qualify (s.weighedList p)).2 } := by
  unfold State.weighed
  rw [State.view_setPen]
  rfl

theorem PenView.Rests.of_same {v u : PenView} (h : v.Rests) (hm : u.mode = v.mode) (ha : u.attempt = v.attempt)
    (hp : u.phase = v.phase) : u.Rests := by
  unfold PenView.Rests PenView.InRegion at h ⊢
  rwa [hm, ha, hp]

theorem State.view_writeEcho (s : State) (p : Pen) (v : Option Nat) :
    (s.writeEcho p v).view p = if (s.pen p).record.echo then { s.view p with echo := v } else s.view p := by
  unfold State.writeEcho
  split
  · exact s.view_setEcho p v
  · rfl

theorem PenView.Law.clear_echo {v : PenView} (h : v.Law) : PenView.Law { v with echo := none } := by
  obtain ⟨⟨hoff, hmode⟩, region⟩ := h
  refine ⟨⟨fun hm => ?_, hmode⟩, region⟩
  obtain ⟨h1, h2, h3, h4, -⟩ := hoff hm
  exact ⟨h1, h2, h3, h4, rfl⟩

theorem State.confirm_rests {s : State} {p : Pen} (h : (s.view p).Rests) (winner : Candidate) (exclusions : List Key) :
    ((s.confirm p winner exclusions).view p).Rests ∧
      ((s.confirm p winner exclusions).view p).mode = (s.view p).mode := by
  obtain ⟨used, -, hregion, idle⟩ := h
  have view (e : PenEngine) (hr : e.record = (s.pen p).record) (ha : e.attempt = (s.pen p).attempt) :
      (((s.setPen p e).setEcho p none).view p).mode = (s.view p).mode ∧
        (((s.setPen p e).setEcho p none).view p).attempt = (s.view p).attempt ∧
        (((s.setPen p e).setEcho p none).view p).phase = (s.view p).phase := by
    rw [State.view_setEcho, State.view_setPen]
    exact ⟨by simp only [hr]; rfl, ha, rfl⟩
  unfold State.confirm
  dsimp only
  obtain ⟨hmode, hattempt, hphase⟩ := view { s.pen p with
      candidates := [], exclusions := if (s.pen p).record.cycle = true then
        addExclusion exclusions winner.key else exclusions } rfl rfl
  rw [← hmode]
  refine State.claimOutcome_rests (by rw [hmode]; exact used) (by rw [hphase]; exact idle) (.inl ?_)
  unfold PenView.InRegion
  rw [hattempt]
  exact hregion

theorem penLaw_weigh {s : State} (h : s.PenLaw) {p : Pen} (ha : (s.pen p).attempt = .gathering) :
    (s.weigh p).PenLaw := by
  have same (q : Pen) (hq : p ≠ q) : SamePen q s (s.weigh p) := (samePen_keeps q s).weigh s p hq ha (.refl q s)
  have rests : (s.view p).Rests :=
    (h.law p).rests (by simp [State.view, ha]) (by simp [State.view, PenView.InRegion, ha])
  have weighed : ((s.weighed p).view p).Rests := by
    rw [State.view_weighed]
    exact rests.of_same rfl rfl rfl
  have used : (s.view p).mode ≠ .off := rests.1
  obtain ⟨winner, -, heq⟩ | ⟨-, ⟨-, heq⟩ | ⟨-, heq⟩⟩ := s.weigh_cases p
  · rw [heq] at same ⊢
    obtain ⟨hrests, hmode⟩ := State.confirm_rests weighed winner ((s.pen p).qualify (s.weighedList p)).2
    refine h.rested p same ⟨hrests, by rw [hmode, State.view_weighed]⟩ fun lock => ?_
    exact State.claimOutcome_lockOk (mode := fun q => (s.view q).mode) used lock
  · rw [heq] at same ⊢
    refine h.rested p same ⟨?_, ?_⟩ (by rw [State.endMiss_menu]; exact id)
    · rw [State.view_endMiss, State.view_weighed]
      obtain hn | ⟨k, b, hn⟩ := (s.pen p).record.mode.afterSpan_cases <;>
        exact ⟨used, by simp [PenView.missed, hn], by simp [PenView.missed, PenView.InRegion, hn], rfl⟩
    · rw [State.view_endMiss, State.view_weighed]; rfl
  · rw [heq] at same ⊢
    refine h.rested p same ⟨?_, ?_⟩ (by rw [State.writeEcho_menu]; exact id)
    · rw [State.view_writeEcho]
      split
      · exact weighed.of_same rfl rfl rfl
      · exact weighed
    · rw [State.view_writeEcho]
      split <;> rw [State.view_weighed]

theorem penLaw_writeEcho {s : State} (h : s.PenLaw) (p : Pen) : (s.writeEcho p none).PenLaw := by
  refine h.acted (fun q hq => (samePen_keeps q s).writeEcho s p hq none (.refl q s)) ?_ ?_
    (by rw [State.writeEcho_menu]; exact id)
  · rw [State.view_writeEcho]; split <;> rfl
  · rw [State.view_writeEcho]
    split
    · exact (h.law p).clear_echo
    · exact h.law p

/-- A pen with no region attempt enters another state without one. -/
theorem penLaw_setAttempt {s : State} (h : s.PenLaw) {p : Pen} (hoff : (s.pen p).attempt ≠ .off)
    (hr : ¬ (s.view p).InRegion) {e : PenEngine} (hm : e.record.mode = (s.pen p).record.mode) (ha : e.attempt ≠ .off)
    (hw : e.attempt ≠ .regionWait) (hc : e.attempt ≠ .regionCount) : (s.setPen p e).PenLaw := by
  obtain ⟨used, -, -, idle⟩ := (h.law p).rests hoff hr
  refine h.rested p (fun q hq => ⟨Pair.get_set_other _ hq.symm e, rfl, rfl, rfl⟩) ?_ id
  rw [State.view_setPen]
  refine ⟨⟨?_, ha, fun h => h.elim hw hc, idle⟩, hm⟩
  rw [hm]; exact used

theorem PenEngine.settledClose_cases (e : PenEngine) (key : Option Key) (struck : Bool) :
    (∃ k b, e.settledClose key struck = .settled k b) ∨ e.settledClose key struck = .ready := by
  unfold PenEngine.settledClose
  split
  · split
    · exact .inl ⟨_, _, rfl⟩
    · exact .inr rfl
  all_goals exact .inl ⟨_, _, rfl⟩

theorem penLaw_penFrameClose {s : State} (h : s.PenLaw) (p : Pen) : (s.penFrameClose p).PenLaw := by
  unfold State.penFrameClose
  split
  · next ha => exact penLaw_weigh h ha
  · next key struck ha =>
    refine penLaw_writeEcho ?_ p
    refine penLaw_setAttempt h (by simp [ha]) (by simp [State.view, PenView.InRegion, ha]) rfl ?_ ?_ ?_
    all_goals
      dsimp only
      obtain ⟨k, b, hn⟩ | hn := (s.pen p).settledClose_cases key struck <;> simp [hn]
  · exact h
  all_goals exact penLaw_writeEcho h p

/-! ### Trackers (R98 to R105) -/

/-- An action after which the pen views the same. -/
theorem State.PenLaw.viewed {s t : State} (h : s.PenLaw) (hv : ∀ p, t.view p = s.view p)
    (hlock : ∀ mode, s.menu.LockOk mode → t.menu.LockOk mode) : t.PenLaw := by
  obtain ⟨hlaw, hown⟩ := s.penLaw_iff.1 h
  refine t.penLaw_iff.2 ⟨fun p => by rw [hv p]; exact hlaw p, hlock _ ?_⟩
  simpa only [hv] using hown

/-- A write of a tracker that keeps its state. -/
theorem penLaw_setTracker {s : State} (h : s.PenLaw) (p : Pen) {u : Tracker} (hu : u.state = (s.tracker p).state) :
    (s.setTracker p u).PenLaw := by
  refine h.acted (fun q hq => ⟨rfl, Pair.get_set_other _ hq.symm u, rfl, rfl⟩) ?_ ?_ id
  · rw [State.view_setTracker]
  · rw [State.view_setTracker, hu]; exact h.law p

namespace State.PenLaw

variable {s : State} (h : s.PenLaw) (p : Pen)
include h

theorem mode_of_track (ha : (s.tracker p).state ≠ .off) : (s.view p).mode ≠ .off :=
  fun hm => ha ((h.law p).1.1 hm).2.1

theorem not_inRegion (hl : (s.tracker p).state ≠ .locked) : ¬ (s.view p).InRegion :=
  fun hr => hl ((h.law p).2.2.2 hr)

end State.PenLaw

theorem samePen_coastLimitReached (s : State) {p q : Pen} (hq : p ≠ q) : SamePen q s (s.coastLimitReached p) := by
  unfold State.coastLimitReached
  dsimp only
  split
  · exact (samePen_keeps q s).trackRequest _ p hq _ nofun
      ((samePen_keeps q s).setTracker s p _ hq nofun (.refl q s))
  · exact .refl q s

theorem penLaw_coastLimitReached {s : State} (h : s.PenLaw) (p : Pen) : (s.coastLimitReached p).PenLaw := by
  refine h.acted (fun q hq => samePen_coastLimitReached s hq) ?_ ?_
    (by rw [State.coastLimitReached_menu]; exact id)
  · rw [State.view_coastLimitReached]; split <;> rfl
  · rw [State.view_coastLimitReached]
    split
    · next hc =>
      refine (h.law p).track (h.not_inRegion p (by simp [hc.1])) fun hm => absurd hm ?_
      exact h.mode_of_track p (by simp [hc.1])
    · exact h.law p

theorem PenView.Law.lock {v : PenView} (h : v.Law) (hm : v.mode ≠ .off) : PenView.Law { v with track := .locked } :=
  ⟨⟨fun hoff => absurd hoff hm, h.1.2⟩, h.2.1, h.2.2.1, fun _ => rfl⟩

theorem penLaw_coast {s : State} (h : s.PenLaw) (p : Pen) : (s.coast p).PenLaw := by
  unfold State.coast
  dsimp only
  split
  · exact penLaw_setTracker h p rfl
  · exact penLaw_setTracker h p rfl
  · next hl =>
    refine penLaw_coastLimitReached (h.tracked p (fun q hq => ?_) ?_ .coasting
      (fun hm => absurd hm ?_) (s.view_setTracker p { s.tracker p with
        state := .coasting, missCount := 1, tally := Tally.empty }) ?_) p
    · exact (samePen_keeps q s).notifyUnlocked _ p hq ((samePen_keeps q s).setTracker s p _ hq nofun (.refl q s))
    · rw [State.notifyUnlocked_menu]; rfl
    · exact h.mode_of_track p (by simp [hl])
    · rw [State.notifyIfLocked, if_pos hl]
  · next hc =>
    refine penLaw_coastLimitReached ?_ p
    exact penLaw_setTracker h p rfl

theorem penLaw_correct {s : State} (h : s.PenLaw) {p : Pen} (ha : (s.tracker p).state ≠ .off) :
    (s.correct p).PenLaw := by
  have view : (s.correct p).view p = { s.view p with track := .locked } := by
    have locked := s.view_setTracker p { s.tracker p with
      state := .locked, position := (s.tracker p).corrected, missCount := 0, tally := Tally.empty }
    unfold State.correct State.movedRequest State.lockedRequest
    dsimp only
    split <;> split <;> simp only [State.view_positionRequest, State.view_trackRequest, locked]
  refine h.acted (fun q hq => (samePen_keeps q s).correct s p hq (.refl q s)) (by rw [view]) ?_
    (by rw [State.correct_menu]; exact id)
  rw [view]
  exact (h.law p).lock (h.mode_of_track p ha)

theorem penLaw_trackerFrameClose {s : State} (h : s.PenLaw) (p : Pen) : (s.trackerFrameClose p).PenLaw := by
  unfold State.trackerFrameClose
  dsimp only
  split
  · exact h
  · next active =>
    split
    · exact penLaw_setTracker h p rfl
    · split
      · exact penLaw_coast h p
      · exact penLaw_correct h (by simpa [Tracker.active] using active)

theorem penLaw_crossHit {s : State} (h : s.PenLaw) (p : Pen) (arm : Arm) (k : Nat) : (s.crossHit p arm k).PenLaw := by
  unfold State.crossHit
  dsimp only
  split
  · exact penLaw_setTracker h p rfl
  · exact h

theorem penLaw_setTrack {s : State} (h : s.PenLaw) {p : Pen} (hm : (s.pen p).record.mode ≠ .off) (point : Point)
    (pitch coast : Nat) : (s.setTrack p point pitch coast).PenLaw := by
  refine h.tracked p (fun q hq => ?_) (State.notifyIfLocked_menu ..) .seeking (fun hoff => absurd hoff hm)
    (s.view_setTracker p _) rfl
  exact (samePen_keeps q s).notifyIfLocked _ p hq _ ((samePen_keeps q s).setTracker s p _ hq nofun (.refl q s))

theorem penLaw_turnTrackerOff {s : State} (h : s.PenLaw) (p : Pen) : (s.turnTrackerOff p).PenLaw := by
  refine h.tracked p (fun q hq => (samePen_keeps q s).turnTrackerOff s p hq (.refl q s))
    (State.turnTrackerOff_menu ..) .off (fun _ => rfl) ?_ rfl
  rw [State.view_dropDots, State.view_setTracker]
  rfl

theorem penLaw_trackerTipUp {s : State} (h : s.PenLaw) (p : Pen) : (s.trackerTipUp p).PenLaw := by
  have same (q : Pen) (hq : p ≠ q) : SamePen q s (s.trackerTipUp p) :=
    (samePen_keeps q s).trackerTipUp s p hq (.refl q s)
  unfold State.trackerTipUp at same ⊢
  dsimp only at same ⊢
  split at same
  · next hd =>
    rw [if_pos hd]
    refine h.tracked p same (State.dragEnd_menu ..) .off (fun _ => rfl) ?_ rfl
    rw [State.view_positionRequest, State.view_dropDots, State.view_setTracker]
    rfl
  · next hd => rw [if_neg hd]; exact h

theorem penLaw_trackerExpiry {s : State} (h : s.PenLaw) (p : Pen) : (s.trackerExpiry p).PenLaw := by
  have same (q : Pen) (hq : p ≠ q) : SamePen q s (s.trackerExpiry p) :=
    (samePen_keeps q s).trackerExpiry s p hq (.refl q s)
  have menu := s.trackerExpiry_menu p
  unfold State.trackerExpiry at same menu ⊢
  dsimp only at same menu ⊢
  split at same
  · next hd =>
    rw [if_pos hd] at menu ⊢
    refine h.tracked p same menu .seeking (fun hm => absurd hm (h.mode_of_track p ?_)) ?_ rfl
    · rcases hd with hd | hd <;> simp [hd]
    · rw [State.view_trackRequest, State.view_setTracker]
  · next hd => rw [if_neg hd]; exact h

/-! ### Hits and the tip (R54, R56) -/

/-- R76 to R78: what a hit leaves unchanged of a pen engine. -/
theorem PenEngine.recordKey_eq (e : PenEngine) (key : Key) (kind : CandidateKind) (strike : Point) :
    ∃ cs n c, e.recordKey key kind strike = { e with candidates := cs, firstSeen := n, crowded := c } := by
  have join (f : PenEngine) : ∃ cs n, f.join key kind strike = { f with candidates := cs, firstSeen := n } := by
    unfold PenEngine.join PenEngine.renumbered
    split <;> exact ⟨_, _, rfl⟩
  unfold PenEngine.recordKey PenEngine.displace
  split
  · exact ⟨_, _, _, rfl⟩
  · split
    · obtain ⟨cs, n, heq⟩ := join e
      exact ⟨cs, n, _, heq⟩
    · split
      · obtain ⟨cs, n, heq⟩ := join e
        exact ⟨cs, n, _, heq⟩
      · split
        · next v _ _ =>
          obtain ⟨cs, n, heq⟩ := join { e with candidates := e.candidates.filter fun c => decide (c.key ≠ v.key) }
          exact ⟨cs, n, _, heq⟩
        · exact ⟨_, _, true, rfl⟩

theorem State.recordHit_eq (s : State) (p : Pen) (key : Key) (strike : Point) :
    ∃ cs n c, s.recordHit p key strike = s.setPen p { s.pen p with candidates := cs, firstSeen := n, crowded := c } := by
  unfold State.recordHit
  split
  · exact ⟨_, _, _, s.setPen_pen p |>.symm⟩
  · obtain ⟨cs, n, c, heq⟩ := (s.pen p).recordKey_eq key _ strike
    exact ⟨cs, n, c, by rw [heq]⟩

theorem penLaw_hit {s : State} (h : s.PenLaw) (p : Pen) (key : Key) (strike : Point) :
    (s.hit p key strike).PenLaw := by
  unfold State.hit
  split
  · next ha =>
    obtain ⟨cs, n, c, heq⟩ := s.recordHit_eq p key strike
    rw [heq]
    exact penLaw_setAttempt h (by simp [ha]) (by simp [State.view, PenView.InRegion, ha]) rfl (by simp [ha])
      (by simp [ha]) (by simp [ha])
  · next ha =>
    unfold State.readyHit
    split
    · obtain ⟨cs, n, c, heq⟩ := State.recordHit_eq (s.setPen p ((s.pen p).started .gathering)) p key strike
      rw [heq, State.setPen_setPen, State.pen_setPen]
      exact penLaw_setAttempt h (by simp [ha]) (by simp [State.view, PenView.InRegion, ha]) rfl
        (by simp [PenEngine.started]) (by simp [PenEngine.started]) (by simp [PenEngine.started])
    · exact h
  · next ha =>
    unfold State.settledHit
    split
    · exact penLaw_setAttempt h (by simp [ha]) (by simp [State.view, PenView.InRegion, ha]) rfl (by simp) (by simp)
        (by simp)
    · exact h
  all_goals exact h

theorem penLaw_penTipDown {s : State} (h : s.PenLaw) (p : Pen) : (s.penTipDown p).PenLaw := by
  have written := penLaw_setTip h p .down
  unfold State.penTipDown
  dsimp only
  split
  · next ha => exact penLaw_startAttempt written (by rw [State.pen_setPen]; exact ha)
  all_goals exact written

theorem penLaw_penTipUp {s : State} (h : s.PenLaw) (p : Pen) : (s.penTipUp p).PenLaw := by
  have written := penLaw_setTip h p .up
  have released (ha : (s.pen p).attempt ≠ .off) := written.endMiss p .released (next := .ready)
    (by rw [State.pen_setPen]; exact ha) (.inl rfl)
  unfold State.penTipUp
  dsimp only
  split
  · next ha =>
    split
    · exact released (by simp [ha])
    · exact written
  · next ha => exact released (by simp [ha])
  · next ha => exact released (by simp [ha])
  · next ha =>
    have ready : (State.setPen (s.setPen p { s.pen p with tip := .up }) p
        { (s.setPen p { s.pen p with tip := .up }).pen p with attempt := .ready }).PenLaw :=
      penLaw_setAttempt written (by simp [ha]) (by simp [State.view, PenView.InRegion, ha]) rfl (by simp) (by simp)
        (by simp)
    unfold State.settledTipUp
    split
    · exact ready
    · exact ready
    · exact written
    · exact written
  all_goals exact written

theorem penLaw_penExpiry {s : State} (h : s.PenLaw) (p : Pen) : (s.penExpiry p).PenLaw := by
  unfold State.penExpiry
  split
  · next ha => exact h.endMiss p .stalled (by simp [ha]) (.inl rfl)
  · next ha => exact h.endMiss p .stalled (by simp [ha]) (.inl rfl)
  · next ha => exact h.endMiss p .stalled (by simp [ha]) (.inl rfl)
  all_goals exact h

/-! ### PEN MODE (R68, R69) -/

/-- The attempt in progress is over. -/
theorem penLaw_endForMode {s : State} (h : s.PenLaw) (p : Pen) :
    (s.endForMode p).PenLaw ∧ ¬ ((s.endForMode p).view p).InRegion ∧ (s.endForMode p).menu = s.menu ∧
      ((s.endForMode p).pen p).tip = (s.pen p).tip := by
  have missed (ha : (s.pen p).attempt ≠ .off) : (s.endMiss p .aborted .ready).PenLaw ∧
      ¬ ((s.endMiss p .aborted .ready).view p).InRegion ∧ (s.endMiss p .aborted .ready).menu = s.menu ∧
      ((s.endMiss p .aborted .ready).pen p).tip = (s.pen p).tip :=
    ⟨h.endMiss p .aborted ha (.inl rfl), by rw [State.view_endMiss]; simp [PenView.missed, PenView.InRegion],
      State.endMiss_menu .., by simp⟩
  unfold State.endForMode
  split
  · next ha => exact missed (by simp [ha])
  · next ha => exact missed (by simp [ha])
  · next ha => exact missed (by simp [ha])
  · next ha =>
    refine ⟨penLaw_setAttempt h (by simp [ha]) (by simp [State.view, PenView.InRegion, ha]) rfl (by simp) (by simp)
      (by simp), by rw [State.view_setPen]; simp [PenView.InRegion], rfl, by simp⟩
  · next ha => exact ⟨h, by simp [State.view, PenView.InRegion, ha], rfl, rfl⟩
  · next ha => exact ⟨h, by simp [State.view, PenView.InRegion, ha], rfl, rfl⟩
  · next ha => exact ⟨h, by simp [State.view, PenView.InRegion, ha], rfl, rfl⟩

theorem State.view_writeMode (s : State) (p : Pen) (r : ModeRecord) (a : AttemptState) :
    (s.writeMode p r a).view p =
      { s.view p with mode := r.mode, attempt := a, candidates := [], exclusions := [], echo := none } := by
  unfold State.writeMode
  rw [State.view_setEcho, State.view_setPen]

/-- R68 steps 2 to 4: another mode than OFF, once no region attempt is in progress. -/
theorem penLaw_writeMode {s : State} (h : s.PenLaw) {p : Pen} (hr : ¬ (s.view p).InRegion) {r : ModeRecord}
    (hm : r.mode ≠ .off) : (s.writeMode p r .ready).PenLaw := by
  have view := s.view_writeMode p r .ready
  have other (q : Pen) (hq : p ≠ q) : (s.writeMode p r .ready).view q = s.view q :=
    SamePen.view ((samePen_keeps q s).setEcho _ p hq none ((samePen_keeps q s).setPen s p _ hq nofun (.refl q s)))
  obtain ⟨hlaw, hlen, hown⟩ := s.penLaw_iff.1 h
  have used (q : Pen) (hq : (s.view q).mode ≠ .off) : ((s.writeMode p r .ready).view q).mode ≠ .off := by
    by_cases hpq : p = q
    · subst hpq; rw [view]; exact hm
    · rw [other q hpq]; exact hq
  refine (State.penLaw_iff _).2 ⟨fun q => ?_, hlen, fun q hq => used q (hown q hq)⟩
  by_cases hq : p = q
  · subst hq
    rw [view]
    exact PenView.Rests.law ⟨hm, by simp, by simp [PenView.InRegion], (hlaw p).idle hr⟩
  · rw [other q hq]; exact hlaw q

/-- R69: the pen and its tracker are OFF, and the menu lock is not the pen's. -/
theorem penLaw_modeOff {s : State} (h : s.PenLaw) {p : Pen} (hr : ¬ (s.view p).InRegion) {r : ModeRecord}
    (hm : r.mode = .off) : (((s.writeMode p r .off).turnTrackerOff p).releaseLock p).PenLaw := by
  have written := s.view_writeMode p r .off
  have off : ((s.writeMode p r .off).turnTrackerOff p).view p =
      { (s.writeMode p r .off).view p with track := .off } := by
    unfold State.turnTrackerOff
    rw [State.notifyIfLocked_of_not_inRegion]
    · rw [State.view_dropDots, State.view_setTracker]; rfl
    · rw [State.view_dropDots, State.view_setTracker, written]; simp [PenView.InRegion]
  have menu : ((s.writeMode p r .off).turnTrackerOff p).menu = s.menu := State.turnTrackerOff_menu ..
  have released (t : State) : (∀ q, (t.releaseLock p).view q = t.view q) ∧
      ((t.releaseLock p).menu.owner = none ∨
        t.menu.owner ≠ some p ∧ (t.releaseLock p).menu = t.menu) := by
    unfold State.releaseLock
    split
    · exact ⟨fun _ => rfl, .inl rfl⟩
    · next ho => exact ⟨fun _ => rfl, .inr ⟨ho, rfl⟩⟩
  obtain ⟨views, hlock⟩ := released ((s.writeMode p r .off).turnTrackerOff p)
  have other (q : Pen) (hq : p ≠ q) : ((s.writeMode p r .off).turnTrackerOff p).view q = s.view q :=
    SamePen.view ((samePen_keeps q s).turnTrackerOff _ p hq
      ((samePen_keeps q s).setEcho _ p hq none ((samePen_keeps q s).setPen s p _ hq nofun (.refl q s))))
  obtain ⟨hlaw, hlen, hown⟩ := s.penLaw_iff.1 h
  refine (State.penLaw_iff _).2 ⟨fun q => ?_, fun hlt => ?_, fun q hq => ?_⟩
  · rw [views]
    by_cases hq : p = q
    · subst hq
      rw [off, written]
      have idle := (hlaw p).idle hr
      simp [PenView.Law, hm, idle]
    · rw [other q hq]; exact hlaw q
  · rcases hlock with hnone | ⟨-, hsame⟩
    · exact hnone
    · rw [hsame, menu] at hlt ⊢; exact hlen hlt
  · show (State.view _ q).mode ≠ .off
    rw [views]
    rcases hlock with hnone | ⟨hne, hsame⟩
    · rw [hnone] at hq; cases hq
    · rw [hsame] at hq
      have hpq : p ≠ q := by rintro rfl; exact hne hq
      rw [other q hpq]
      rw [menu] at hq
      exact hown q hq

theorem penLaw_changeMode {s : State} (h : s.PenLaw) (p : Pen) (r : ModeRecord) : (s.changeMode p r).PenLaw := by
  obtain ⟨ended, hr, -, -⟩ := penLaw_endForMode h p
  have restarted (hm : r.mode ≠ .off) : (((s.endForMode p).writeMode p r .ready).restart p).PenLaw := by
    have written := penLaw_writeMode ended hr hm
    unfold State.restart
    split
    · exact penLaw_startAttempt written (by simp [State.writeMode])
    · exact written
  unfold State.changeMode
  split
  · next hm => exact penLaw_modeOff ended hr hm
  · next hm => exact restarted (by simp [hm])
  · next hm => exact restarted (by simp [hm])
  · next hm => exact restarted (by simp [hm])

/-! ### Frame passages and grants -/

theorem penLaw_regionFramePassage {s : State} (h : s.PenLaw) (p : Pen) : (s.regionFramePassage p).PenLaw := by
  have same (q : Pen) (hq : p ≠ q) : SamePen q s (s.regionFramePassage p) :=
    (samePen_keeps q s).regionFramePassage s p hq (.refl q s)
  unfold State.regionFramePassage at same ⊢
  cases hphase : (s.regionTest p).phase with
  | idle => exact h
  | waiting =>
    simp only [hphase] at same ⊢
    have ha : (s.pen p).attempt = .regionWait := (h.law p).2.1.1 hphase
    have used : (s.pen p).record.mode ≠ .off := (h.law p).mode_ne_off (by simp [State.view, ha])
    have locked : (s.tracker p).state = .locked := (h.law p).2.2.2 (.inl ha)
    unfold State.latchRegion at same ⊢
    refine h.acted same ?_ ?_ id
    · rw [State.view_setPen]; rfl
    · rw [State.view_setPen, State.view_setRegionTest]
      simp [PenView.Law, State.view, used, locked, RegionTest.latch]
  | counting =>
    simp only [hphase] at same ⊢
    have ha : (s.pen p).attempt = .regionCount := (h.law p).2.2.1.1 hphase
    have used : (s.view p).mode ≠ .off := (h.law p).mode_ne_off (by simp [State.view, ha])
    have idle := s.view_setRegionTest p { s.regionTest p with phase := .idle }
    unfold State.evaluateRegion at same ⊢
    dsimp only at same ⊢
    split at same
    · obtain ⟨rests, hmode⟩ := State.claimOutcome_rests (s := s.setRegionTest p { s.regionTest p with phase := .idle })
        (p := p) (by rw [idle]; exact used) (by rw [idle]) (.inr ⟨_, _, _, rfl⟩)
      refine h.rested p same ⟨rests, by rw [hmode, idle]⟩ fun lock => ?_
      exact State.claimOutcome_lockOk (mode := fun q => (s.view q).mode) used lock
    · refine h.rested p same ⟨?_, ?_⟩ (by rw [State.endMiss_menu]; exact id)
      · rw [State.view_endMiss, idle]
        exact ⟨used, by simp [PenView.missed], by simp [PenView.missed, PenView.InRegion], rfl⟩
      · rw [State.view_endMiss, idle]; rfl

theorem penLaw_deliver {s : State} (h : s.PenLaw) {p : Pen} {o : HeldOutcome} (free : s.entryFree = true)
    (ha : (s.pen p).attempt = .holding o) : (s.deliver p o).PenLaw := by
  obtain ⟨used, -, hregion, idle⟩ : (s.view p).Rests :=
    (h.law p).rests (by simp [State.view, ha]) (by simp [State.view, PenView.InRegion, ha])
  refine h.rested p (fun q hq => (samePen_keeps q s).deliver s p hq o free nofun (.refl q s))
    (State.deliver_rests used idle (.inl hregion)) fun lock => ?_
  exact State.deliver_lockOk (mode := fun q => (s.view q).mode) used lock

theorem State.view_menuFramePassage (s : State) (p : Pen) : s.menuFramePassage.view p = s.view p := by
  simp [State.view, State.pen, State.tracker, State.regionTest]

theorem penLaw_menuFramePassage {s : State} (h : s.PenLaw) : s.menuFramePassage.PenLaw := by
  refine h.viewed s.view_menuFramePassage fun mode lock => ?_
  unfold State.menuFramePassage
  split
  · exact lock
  · split
    · exact lock
    · dsimp only
      split
      · unfold State.idleReturn State.idleRequest
        dsimp only
        split <;> exact ⟨fun _ => rfl, fun _ hq => by cases hq⟩
      · exact lock

theorem penLaw_forceItem {s t : State} (h : s.PenLaw) {n k : Nat} (ht : s.forceItem n k = some t) : t.PenLaw := by
  unfold State.forceItem at ht
  split at ht
  · cases ht
  · split at ht
    · cases ht
      exact h.viewed (fun p => rfl) fun mode lock => MenuUnit.lockForced_lockOk lock n k _
    · cases ht

theorem penLaw_countBoundary {s : State} (h : s.PenLaw) (seg : Nat) (p0 p1 : Point) :
    (s.countBoundary seg p0 p1).PenLaw := by
  have phase (t : RegionTest) (b : Bound) : (t.count b p0 p1).phase = t.phase := by
    unfold RegionTest.count RegionTest.stepCounter
    repeat' split
    all_goals rfl
  refine h.viewed (fun p => ?_) fun mode lock => ?_
  · unfold State.countBoundary
    split
    · rfl
    · cases p <;> simp [State.view, State.regionTest, State.pen, State.tracker, Pair.get, phase]
  · unfold State.countBoundary
    split <;> exact lock

theorem penLaw_fixCrosses {s : State} (h : s.PenLaw) : s.fixCrosses.PenLaw := by
  have state (t : Tracker) : t.crossFixed.state = t.state := by
    unfold Tracker.crossFixed
    split <;> rfl
  refine h.viewed (fun p => ?_) fun _ lock => lock
  cases p <;> simp [State.view, State.regionTest, State.pen, State.tracker, Pair.get, state]

theorem penLaw_grantTrack {s : State} (h : s.PenLaw) (p : Pen) : (s.grantTrack p).PenLaw := by
  unfold State.grantTrack
  split
  · have taken : (s.setTracker p { s.tracker p with trackClaim := none }).PenLaw := penLaw_setTracker h p rfl
    exact taken.viewed (fun _ => rfl) fun _ lock => lock
  · exact h

theorem penLaw_grantPosition {s : State} (h : s.PenLaw) (p : Pen) : (s.grantPosition p).PenLaw := by
  unfold State.grantPosition
  split
  · have taken : (s.setTracker p { s.tracker p with positionClaim := none }).PenLaw := penLaw_setTracker h p rfl
    exact taken.viewed (fun _ => rfl) fun _ lock => lock
  · exact h

theorem penLaw_grantIdleReturn {s : State} (h : s.PenLaw) : s.grantIdleReturn.PenLaw := by
  unfold State.grantIdleReturn
  split
  · exact h.viewed (fun _ => rfl) fun _ lock => lock
  · exact h

theorem penLaw_raiseFault {s : State} (h : s.PenLaw) (k : FaultKind) (c : Word) : (s.raiseFault k c).PenLaw := by
  refine h.viewed (fun p => ?_) fun mode lock => ?_
  · simp [State.view, State.pen, State.tracker, State.regionTest]
  · rw [State.raiseFault_menu]; exact lock

/-- Both pens OFF, at rest, and no lock. -/
theorem penLaw_of_off {s : State} (hv : ∀ p, s.view p =
      { mode := .off, attempt := .off, track := .off, candidates := [], exclusions := [], echo := none, phase := .idle })
    (ho : s.menu.owner = none) : s.PenLaw := by
  refine s.penLaw_iff.2 ⟨fun p => ?_, fun _ => ho, fun p hp => ?_⟩
  · rw [hv]; simp [PenView.Law]
  · rw [ho] at hp; cases hp

theorem reset_penLaw : State.reset.PenLaw := penLaw_of_off (fun p => by cases p <;> rfl) rfl

theorem resetAll_penLaw (s : State) : s.resetAll.PenLaw := penLaw_of_off (fun p => by cases p <;> rfl) rfl

theorem penLaw_actions : ActionsKeep State.PenLaw where
  others _ _ _ _ _ _ h := h
  powerOn := reset_penLaw
  resetAll s _ := resetAll_penLaw s
  raiseFault _ k c h := penLaw_raiseFault h k c
  fixCrosses _ h := penLaw_fixCrosses h
  beam _ _ _ h := h
  injection _ _ _ h := h
  segments _ _ _ h := h
  records _ _ _ h := h
  rewrite s r hr h := h.viewed (fun p => by simp [State.view, State.pen, State.tracker, State.regionTest, hr])
    fun _ lock => lock
  channels _ _ _ _ _ h := h
  menu s m _ hm h := h.viewed (fun _ => rfl) fun mode lock => by
    rcases hm with hnone | ⟨hown, hstack⟩
    · exact ⟨fun _ => hnone, fun p hp => by rw [hnone] at hp; cases hp⟩
    · unfold MenuUnit.LockOk
      rw [hown, hstack]
      exact lock
  forceItem _ _ _ _ _ ht h := penLaw_forceItem h ht
  reply _ _ _ _ h := h
  changeMode _ p r _ h := penLaw_changeMode h p r
  setFence s p f h := by
    refine h.acted (fun q hq => ⟨Pair.get_set_other _ hq.symm _, rfl, rfl, rfl⟩) ?_ ?_ id
    · rw [State.setFence, State.view_setPen]; rfl
    · rw [State.setFence, State.view_setPen]; exact h.law p
  clearExclusions s p h := by
    refine h.acted (fun q hq => ⟨Pair.get_set_other _ hq.symm _, rfl, rfl, rfl⟩) ?_ ?_ id
    · rw [State.view_setPen]; rfl
    · rw [State.view_setPen]
      obtain ⟨⟨hoff, hmode⟩, region⟩ := h.law p
      refine ⟨⟨fun hm => ?_, hmode⟩, region⟩
      obtain ⟨h1, h2, h3, -, h5⟩ := hoff hm
      exact ⟨h1, h2, h3, rfl, h5⟩
  setTrack _ _ point pitch coast hm _ _ _ _ _ h := penLaw_setTrack h hm point pitch coast
  turnTrackerOff _ p h := penLaw_turnTrackerOff h p
  countBoundary _ seg p0 p1 h := penLaw_countBoundary h seg p0 p1
  regionFramePassage _ p h := penLaw_regionFramePassage h p
  menuFramePassage _ h := penLaw_menuFramePassage h
  penFrameClose _ p h := penLaw_penFrameClose h p
  trackerFrameClose _ p h := penLaw_trackerFrameClose h p
  hit _ p key strike _ h := penLaw_hit h p key strike
  crossHit _ p arm k h := penLaw_crossHit h p arm k
  penTipDown _ p h := penLaw_penTipDown h p
  penTipUp _ p h := penLaw_penTipUp h p
  trackerTipUp _ p h := penLaw_trackerTipUp h p
  penExpiry _ p h := penLaw_penExpiry h p
  trackerExpiry _ p h := penLaw_trackerExpiry h p
  accepts _ _ _ _ _ h := h
  frees _ _ _ _ h := h
  deliver _ _ _ free ha h := penLaw_deliver h free ha
  grantTrack _ p _ h := penLaw_grantTrack h p
  grantPosition _ p _ _ h := penLaw_grantPosition h p
  grantIdleReturn _ _ h := penLaw_grantIdleReturn h

/-- Settles O57: every action keeps the law of both pens and of the menu lock. -/
theorem stepKeepsThePens : Obligations.StepKeepsThePens := penLaw_actions.step

end Sys2Proof.Machine
end

section
/-! The laws of the candidate and exclusion lists (O56). A pen engine that gathers gains records by hits and loses them
by weighings; in every other state its candidate list is empty. -/

namespace Sys2Proof.Machine

/-! ### The lists of one pen engine -/

theorem bestOf_eq_none_iff {α : Type} (better : α → α → Bool) (l : List α) : bestOf better l = none ↔ l = [] := by
  cases l with
  | nil => simp [bestOf]
  | cons c cs =>
    rw [bestOf]
    constructor
    · intro h
      split at h
      · cases h
      · split at h <;> cases h
    · intro h; cases h

/-- R85: what the laws say of an exclusion list. -/
def ExclusionsOk (r : ModeRecord) (keys : List Key) : Prop :=
  keys.length ≤ 4 ∧ keys.Nodup ∧ (r.cycle = false → keys = [])

theorem exclusionsOk_nil (r : ModeRecord) : ExclusionsOk r [] := ⟨by simp, List.nodup_nil, fun _ => rfl⟩

namespace PenEngine.Law

variable {e : PenEngine} (h : e.Law)
include h

theorem exclusions : ExclusionsOk e.record e.exclusions := by
  obtain ⟨-, -, -, h4, h5, h6, -⟩ := h
  exact ⟨h4, h5, h6⟩

/-- An engine that does not gather, with an empty candidate list. -/
theorem quiet {f : PenEngine} (hr : f.record = e.record) (hc : f.candidates = [])
    (hx : ExclusionsOk f.record f.exclusions) (hs : f.firstSeen ≤ 4095) (hn : f.frameCount ≤ 63)
    (ha : f.attempt ≠ .gathering) : f.Law := by
  obtain ⟨hlen, hnodup, hcycle⟩ := hx
  refine ⟨?_, by simp [hc], by simp [hc], hlen, hnodup, hcycle, fun _ => hc, hs, hn, fun hg => absurd hg ha⟩
  rw [hr]
  exact h.1

theorem firstSeen_le : e.firstSeen ≤ 4095 := by
  obtain ⟨-, -, -, -, -, -, -, h8, -⟩ := h
  exact h8

theorem frameCount_le : e.frameCount ≤ 63 := by
  obtain ⟨-, -, -, -, -, -, -, -, h9, -⟩ := h
  exact h9

theorem candidates_eq_nil (ha : e.attempt ≠ .gathering) : e.candidates = [] := by
  obtain ⟨-, -, -, -, -, -, h7, -⟩ := h
  exact h7 ha

/-- An engine that did not gather enters another such state. -/
theorem enters {a : AttemptState} (ha : e.attempt ≠ .gathering) (hn : a ≠ .gathering) (last : LastOutcome) :
    PenEngine.Law { e with attempt := a, lastOutcome := last } :=
  h.quiet rfl (h.candidates_eq_nil ha) h.exclusions h.firstSeen_le h.frameCount_le hn

/-- R55: a new attempt. -/
theorem started (a : AttemptState) : (e.started a).Law := by
  obtain ⟨hrecord, -, -, h4, h5, h6, -⟩ := h
  have span : 1 ≤ e.record.span := hrecord.2.2.2.2.1
  exact ⟨hrecord, by simp [PenEngine.started], by simp [PenEngine.started], h4, h5, h6, fun _ => rfl, by simp [PenEngine.started],
    by simp [PenEngine.started], fun _ => span⟩

end PenEngine.Law

/-! ### The candidate list after a hit (R75 to R78) -/

theorem renumberFrom_keys (n : Nat) (cs : List Candidate) :
    (renumberFrom n cs).map Candidate.key = cs.map Candidate.key := by
  induction cs generalizing n with
  | nil => rfl
  | cons c cs ih => simp [renumberFrom, ih]

theorem PenEngine.renumbered_keys (e : PenEngine) :
    e.renumbered.candidates.map Candidate.key = e.candidates.map Candidate.key := by
  unfold PenEngine.renumbered
  split
  · exact renumberFrom_keys 0 e.candidates
  · rfl

theorem PenEngine.join_keys (e : PenEngine) (key : Key) (kind : CandidateKind) (strike : Point) :
    (e.join key kind strike).candidates.map Candidate.key = e.candidates.map Candidate.key ++ [key] := by
  unfold PenEngine.join
  simp [e.renumbered_keys]

theorem PenEngine.join_firstSeen_le {e : PenEngine} (hs : e.firstSeen ≤ 4095) (hlen : e.candidates.length ≤ 12)
    (key : Key) (kind : CandidateKind) (strike : Point) : (e.join key kind strike).firstSeen ≤ 4095 := by
  unfold PenEngine.join PenEngine.renumbered Config.maxFirstSeen
  split
  · dsimp only; omega
  · dsimp only; omega

/-- R77: a new key joins a list that is not full. -/
theorem PenEngine.join_lists {e : PenEngine} (hlen : e.candidates.length ≤ 11)
    (hnodup : (e.candidates.map Candidate.key).Nodup) (hs : e.firstSeen ≤ 4095) {key : Key}
    (hnew : key ∉ e.candidates.map Candidate.key) (kind : CandidateKind) (strike : Point) :
    (e.join key kind strike).candidates.length ≤ 12 ∧
      ((e.join key kind strike).candidates.map Candidate.key).Nodup ∧ (e.join key kind strike).firstSeen ≤ 4095 := by
  have keys := e.join_keys key kind strike
  refine ⟨?_, ?_, PenEngine.join_firstSeen_le hs (by omega) key kind strike⟩
  · have := congrArg List.length keys
    simp only [List.length_map, List.length_append, List.length_singleton] at this
    omega
  · rw [keys]
    exact List.nodup_append.2 ⟨hnodup, List.nodup_singleton key, fun a ha b hb => by
      rw [List.mem_singleton.1 hb]; rintro rfl; exact hnew ha⟩

theorem Candidate.hit_key (c : Candidate) (key : Key) (kind : CandidateKind) (strike : Point) :
    (c.hit key kind strike).key = c.key := by
  unfold Candidate.hit
  split <;> rfl

/-- R76 to R78: a hit keeps the lists within their bounds, no key twice. -/
theorem PenEngine.Law.recordKey_lists {e : PenEngine} (h : e.Law) (key : Key) (kind : CandidateKind) (strike : Point) :
    (e.recordKey key kind strike).candidates.length ≤ 12 ∧
      ((e.recordKey key kind strike).candidates.map Candidate.key).Nodup ∧
      (e.recordKey key kind strike).firstSeen ≤ 4095 := by
  obtain ⟨-, hlen, hnodup, -, -, -, -, hseen, -⟩ := h
  unfold PenEngine.recordKey Config.candidateRecords
  split
  · refine ⟨by simpa using hlen, ?_, hseen⟩
    rw [List.map_map]
    simpa [Function.comp_def, Candidate.hit_key] using hnodup
  · next hnew =>
    have fresh : key ∉ e.candidates.map Candidate.key := by
      intro hmem
      obtain ⟨c, hc, rfl⟩ := List.mem_map.1 hmem
      exact hnew (List.any_eq_true.2 ⟨c, hc, by simp⟩)
    split
    · exact PenEngine.join_lists (by omega) hnodup hseen fresh kind strike
    · unfold PenEngine.displace
      split
      · next hnone =>
        rw [bestOf_eq_none_iff] at hnone
        exact PenEngine.join_lists (by simp [hnone]) hnodup hseen fresh kind strike
      · next v hv =>
        split
        · have sub : (e.candidates.filter fun c => decide (c.key ≠ v.key)).Sublist e.candidates := List.filter_sublist
          have shorter : (e.candidates.filter fun c => decide (c.key ≠ v.key)).length < e.candidates.length :=
            List.length_filter_lt_length_iff_exists.2 ⟨v, bestOf_mem hv, by simp⟩
          exact PenEngine.join_lists (e := { e with candidates := e.candidates.filter fun c => decide (c.key ≠ v.key) })
            (by dsimp only; omega) (hnodup.sublist (sub.map _)) hseen (fun hm => fresh ((sub.map _).subset hm)) kind strike
        · exact ⟨hlen, hnodup, hseen⟩

theorem PenEngine.Law.recordKey {e : PenEngine} (h : e.Law) (ha : e.attempt = .gathering) (key : Key)
    (kind : CandidateKind) (strike : Point) : (e.recordKey key kind strike).Law := by
  obtain ⟨hlen, hnodup, hseen⟩ := h.recordKey_lists key kind strike
  obtain ⟨cs, n, c, heq⟩ := e.recordKey_eq key kind strike
  rw [heq] at hlen hnodup hseen ⊢
  obtain ⟨hrecord, -, -, h4, h5, h6, -, -, h9, h10⟩ := h
  exact ⟨hrecord, hlen, hnodup, h4, h5, h6, fun hg => absurd ha hg, hseen, h9, h10⟩

/-! ### The lists after a weighing (R80 to R85) -/

theorem State.revalidate_key {s : State} {classes : BitVec 16} {c d : Candidate} (h : s.revalidate classes c = some d) :
    d.key = c.key := by
  unfold State.revalidate at h
  dsimp only at h
  split at h
  · split at h
    · cases h
    · cases h; rfl
    · split at h
      · cases h; rfl
      · cases h
  · cases h

/-- R80, R81: a weighing adds no key. -/
theorem State.weighedList_keys_sublist (s : State) (p : Pen) :
    ((s.weighedList p).map Candidate.key).Sublist ((s.pen p).candidates.map Candidate.key) := by
  unfold State.weighedList
  generalize (s.pen p).candidates = cs
  induction cs with
  | nil => exact List.Sublist.refl _
  | cons c cs ih =>
    rw [shiftHistories, List.map_cons, List.filter_cons]
    split
    · rw [List.filterMap_cons]
      split
      · exact ih.cons _
      · next d hd =>
        rw [List.map_cons, List.map_cons, State.revalidate_key hd]
        exact ih.cons_cons _
    · exact ih.cons _

theorem PenEngine.qualify_exclusions (e : PenEngine) (cs : List Candidate) :
    (e.qualify cs).2 = e.exclusions ∨ (e.qualify cs).2 = [] := by
  unfold PenEngine.qualify
  dsimp only
  split
  · split
    · exact .inr rfl
    · exact .inl rfl
  · exact .inl rfl

theorem PenEngine.Law.qualify_ok {e : PenEngine} (h : e.Law) (cs : List Candidate) :
    ExclusionsOk e.record (e.qualify cs).2 := by
  rcases e.qualify_exclusions cs with heq | heq <;> rw [heq]
  · exact h.exclusions
  · exact exclusionsOk_nil _

/-! ### Both pens -/

/-- `ListLaw` after an action of pen p's blocks. -/
theorem State.ListLaw.acted {s t : State} {p : Pen} (h : s.ListLaw) (same : ∀ q, p ≠ q → SamePen q s t)
    (law : (t.pen p).Law) : t.ListLaw := by
  intro q
  by_cases hq : p = q
  · subst hq; exact law
  · rw [(same q hq).pen]; exact h q

theorem State.ListLaw.of_pens {s t : State} (h : s.ListLaw) (hp : t.pens = s.pens) : t.ListLaw := by
  intro q
  unfold State.pen
  rw [hp]
  exact h q

theorem listLaw_setPen {s : State} (h : s.ListLaw) (p : Pen) {e : PenEngine} (he : e.Law) : (s.setPen p e).ListLaw :=
  pairLaw_set h he

theorem listLaw_endMiss {s : State} (h : s.ListLaw) (p : Pen) (reason : MissReason) {next : AttemptState}
    (hn : next = .ready ∨ ∃ k b, next = .settled k b) : (s.endMiss p reason next).ListLaw := by
  have hnext : ∀ o, next ≠ .holding o := by rcases hn with rfl | ⟨k, b, rfl⟩ <;> simp
  refine h.acted (fun q hq => (samePen_keeps q s).endMiss s p hq reason next hnext (.refl q s)) ?_
  rw [State.pen_endMiss]
  exact (h p).quiet rfl rfl (exclusionsOk_nil _) (h p).firstSeen_le (h p).frameCount_le
    (by rcases hn with rfl | ⟨k, b, rfl⟩ <;> simp)

theorem listLaw_notifyUnlocked {s : State} (h : s.ListLaw) (p : Pen) : (s.notifyUnlocked p).ListLaw := by
  obtain ⟨heq, -⟩ | ⟨heq, -⟩ := s.notifyUnlocked_cases p
  · rw [heq]; exact h
  · rw [heq]; exact listLaw_endMiss h p _ (.inr ⟨_, _, rfl⟩)

theorem listLaw_notifyIfLocked {s : State} (h : s.ListLaw) (p : Pen) (b : TrackState) :
    (s.notifyIfLocked p b).ListLaw := by
  unfold State.notifyIfLocked
  split
  · exact listLaw_notifyUnlocked h p
  · exact h

theorem listLaw_turnTrackerOff {s : State} (h : s.ListLaw) (p : Pen) : (s.turnTrackerOff p).ListLaw := by
  refine listLaw_notifyIfLocked ?_ p _
  exact h.of_pens rfl

theorem listLaw_setTrack {s : State} (h : s.ListLaw) (p : Pen) (point : Point) (pitch coast : Nat) :
    (s.setTrack p point pitch coast).ListLaw := by
  refine listLaw_notifyIfLocked ?_ p _
  exact h.of_pens rfl

theorem listLaw_trackerFrameClose {s : State} (h : s.ListLaw) (p : Pen) : (s.trackerFrameClose p).ListLaw := by
  have coast : (s.coast p).ListLaw := by
    unfold State.coast
    dsimp only
    split
    · exact h.of_pens rfl
    · exact h.of_pens rfl
    · refine State.ListLaw.of_pens (listLaw_notifyUnlocked ?_ p) (State.coastLimitReached_pens ..)
      exact h.of_pens rfl
    · exact h.of_pens (State.coastLimitReached_pens ..)
  unfold State.trackerFrameClose
  dsimp only
  split
  · exact h
  · split
    · exact h.of_pens rfl
    · split
      · exact coast
      · exact h.of_pens (State.correct_pens ..)

theorem listLaw_trackerTipUp {s : State} (h : s.ListLaw) (p : Pen) : (s.trackerTipUp p).ListLaw := by
  unfold State.trackerTipUp
  dsimp only
  split
  · refine listLaw_notifyIfLocked ?_ p _
    exact h.of_pens (by rw [State.positionRequest_pens]; rfl)
  · exact h

theorem listLaw_trackerExpiry {s : State} (h : s.ListLaw) (p : Pen) : (s.trackerExpiry p).ListLaw := by
  unfold State.trackerExpiry
  dsimp only
  split
  · refine listLaw_notifyIfLocked ?_ p _
    exact h.of_pens (by rw [State.trackRequest_pens]; rfl)
  · exact h

/-! ### Deliveries and weighings -/

theorem PenEngine.afterDelivery_ne_gathering (e : PenEngine) (key : Option Key) : e.afterDelivery key ≠ .gathering := by
  obtain ⟨k, heq⟩ | heq := e.afterDelivery_cases key <;> simp [heq]

/-- R62, R63: a claimed outcome is delivered or held. -/
theorem State.claimOutcome_pen (s : State) (p : Pen) (o : HeldOutcome)
    (hr : ¬ (s.view p).InRegion ∨ ∃ r point sat, o = .region r point sat) :
    ∃ a last, a ≠ .gathering ∧ (s.claimOutcome p o).pen p = { s.pen p with attempt := a, lastOutcome := last } := by
  unfold State.claimOutcome
  split
  · obtain ⟨key, last, heq⟩ := s.deliver_pen p o hr
    exact ⟨_, last, (s.pen p).afterDelivery_ne_gathering key, heq⟩
  · exact ⟨.holding o, (s.pen p).lastOutcome, by simp, by simp⟩

/-- R88: a confirmed winner leaves the pen with no candidate, and its key in the exclusion list when CYCLE is on. -/
theorem State.confirm_pen (s : State) (p : Pen) (ha : (s.pen p).attempt = .gathering) (winner : Candidate)
    (keys : List Key) :
    ∃ a last, a ≠ .gathering ∧ (s.confirm p winner keys).pen p = { s.pen p with
      candidates := [], exclusions := if (s.pen p).record.cycle = true then addExclusion keys winner.key else keys
      attempt := a, lastOutcome := last } := by
  have hr (e : PenEngine) (he : e.attempt = (s.pen p).attempt) :
      ¬ (((s.setPen p e).setEcho p none).view p).InRegion := by
    rw [State.view_setEcho, State.view_setPen]
    simp [PenView.InRegion, he, ha]
  unfold State.confirm
  dsimp only
  obtain ⟨a, last, hn, heq⟩ := State.claimOutcome_pen ((s.setPen p { s.pen p with
      candidates := [], exclusions := if (s.pen p).record.cycle = true then addExclusion keys winner.key
        else keys }).setEcho p none) p (.winner winner.key winner.strike (!keys.isEmpty)) (.inl (hr _ rfl))
  refine ⟨a, last, hn, ?_⟩
  rw [heq, State.pen_setEcho, State.pen_setPen]

theorem listLaw_weigh {s : State} (h : s.ListLaw) {p : Pen} (ha : (s.pen p).attempt = .gathering) :
    (s.weigh p).ListLaw := by
  refine h.acted (fun q hq => (samePen_keeps q s).weigh s p hq ha (.refl q s)) ?_
  obtain ⟨hrecord, hlen, hnodup, -, -, -, -, hseen, -, hcount⟩ := h p
  have below : (s.pen p).frameCount + 1 ≤ 63 := by
    have := hcount ha
    have : (s.pen p).record.span ≤ 63 := hrecord.2.2.2.2.2.1
    omega
  have keys := s.weighedList_keys_sublist p
  have allowed := (h p).qualify_ok (s.weighedList p)
  have pen : (s.weighed p).pen p = { s.pen p with
      candidates := s.weighedList p, frameCount := (s.pen p).frameCount + 1
      exclusions := ((s.pen p).qualify (s.weighedList p)).2 } := State.pen_setPen ..
  obtain ⟨winner, -, heq⟩ | ⟨-, ⟨-, heq⟩ | ⟨hspan, heq⟩⟩ := s.weigh_cases p
  · rw [heq]
    obtain ⟨a, last, hn, hpen⟩ := State.confirm_pen (s.weighed p) p (by rw [pen]; exact ha) winner
      ((s.pen p).qualify (s.weighedList p)).2
    rw [hpen, pen]
    refine (h p).quiet rfl rfl ?_ hseen below hn
    obtain ⟨hlen4, hnd, hcycle⟩ := allowed
    dsimp only
    split
    · next hc =>
      exact ⟨addExclusion_length hlen4 _, addExclusion_nodup hnd _, fun hf => by rw [hf] at hc; cases hc⟩
    · exact ⟨hlen4, hnd, hcycle⟩
  · rw [heq, State.pen_endMiss]
    refine (h p).quiet (by rw [pen]) rfl (exclusionsOk_nil _) (by rw [pen]; exact hseen) (by rw [pen]; exact below) ?_
    obtain hn | ⟨k, b, hn⟩ := (s.pen p).record.mode.afterSpan_cases <;> simp [hn]
  · rw [heq]
    unfold State.pen
    rw [State.writeEcho_pens]
    show ((s.weighed p).pen p).Law
    rw [pen]
    obtain ⟨hlen4, hnd, hcycle⟩ := allowed
    refine ⟨hrecord, ?_, hnodup.sublist keys, hlen4, hnd, hcycle, fun hg => absurd ha hg, hseen, below, fun _ => ?_⟩
    · have := keys.length_le
      simp only [List.length_map] at this
      exact this.trans hlen
    · have := hcount ha
      show (s.pen p).frameCount + 1 < (s.pen p).record.span
      omega

theorem listLaw_penFrameClose {s : State} (h : s.ListLaw) (p : Pen) : (s.penFrameClose p).ListLaw := by
  unfold State.penFrameClose
  split
  · next ha => exact listLaw_weigh h ha
  · next key struck ha =>
    refine State.ListLaw.of_pens (listLaw_setPen h p ?_) (State.writeEcho_pens ..)
    refine (h p).enters (by simp [ha]) ?_ (s.pen p).lastOutcome
    obtain ⟨k, b, hn⟩ | hn := (s.pen p).settledClose_cases key struck <;> simp [hn]
  · exact h
  all_goals exact h.of_pens (State.writeEcho_pens ..)

/-! ### Hits, tips and modes -/

theorem listLaw_recordHit {s : State} (h : s.ListLaw) {p : Pen} (ha : (s.pen p).attempt = .gathering) (key : Key)
    (strike : Point) : (s.recordHit p key strike).ListLaw := by
  unfold State.recordHit
  split
  · exact h
  · exact listLaw_setPen h p ((h p).recordKey ha key _ strike)

theorem listLaw_hit {s : State} (h : s.ListLaw) (p : Pen) (key : Key) (strike : Point) :
    (s.hit p key strike).ListLaw := by
  unfold State.hit
  split
  · next ha => exact listLaw_recordHit h ha key strike
  · unfold State.readyHit
    split
    · exact listLaw_recordHit (listLaw_setPen h p ((h p).started .gathering)) (by simp [PenEngine.started]) key strike
    · exact h
  · next ha =>
    unfold State.settledHit
    split
    · exact listLaw_setPen h p ((h p).enters (by simp [ha]) (by simp) (s.pen p).lastOutcome)
    · exact h
  all_goals exact h

theorem listLaw_startAttempt {s : State} (h : s.ListLaw) (p : Pen) : (s.startAttempt p).ListLaw := by
  unfold State.startAttempt
  split
  · exact listLaw_setPen h p ((h p).started .gathering)
  · have started := listLaw_setPen h p ((h p).started .regionWait)
    split
    · exact started.of_pens rfl
    · exact listLaw_endMiss started p _ (.inr ⟨_, _, rfl⟩)
  · exact h
  · exact h

theorem listLaw_setTip {s : State} (h : s.ListLaw) (p : Pen) (tip : Tip) :
    (s.setPen p { s.pen p with tip := tip }).ListLaw := listLaw_setPen h p (h p)

theorem listLaw_penTipDown {s : State} (h : s.ListLaw) (p : Pen) : (s.penTipDown p).ListLaw := by
  have written := listLaw_setTip h p .down
  unfold State.penTipDown
  dsimp only
  split
  · exact listLaw_startAttempt written p
  all_goals exact written

theorem listLaw_penTipUp {s : State} (h : s.ListLaw) (p : Pen) : (s.penTipUp p).ListLaw := by
  have written := listLaw_setTip h p .up
  have released := listLaw_endMiss written p .released (.inl rfl)
  unfold State.penTipUp
  dsimp only
  split
  · split
    · exact released
    · exact written
  · exact released
  · exact released
  · next ha =>
    have ready := listLaw_setPen written p (((written p).enters (by simp [ha]) (a := .ready) (by simp)
      (s.pen p).lastOutcome))
    unfold State.settledTipUp
    split
    · simpa using ready
    · simpa using ready
    · exact written
    · exact written
  all_goals exact written

theorem listLaw_penExpiry {s : State} (h : s.ListLaw) (p : Pen) : (s.penExpiry p).ListLaw := by
  have stalled := listLaw_endMiss h p .stalled (.inl rfl)
  unfold State.penExpiry
  split
  · exact stalled
  · exact stalled
  · exact stalled
  all_goals exact h

theorem listLaw_endForMode {s : State} (h : s.ListLaw) (p : Pen) : (s.endForMode p).ListLaw := by
  have aborted := listLaw_endMiss h p .aborted (.inl rfl)
  unfold State.endForMode
  split
  · exact aborted
  · exact aborted
  · exact aborted
  · next ha => exact listLaw_setPen h p ((h p).enters (by simp [ha]) (by simp) _)
  all_goals exact h

theorem listLaw_changeMode {s : State} (h : s.ListLaw) (p : Pen) {r : ModeRecord} (hr : r.Law) :
    (s.changeMode p r).ListLaw := by
  have ended := listLaw_endForMode h p
  have written (a : AttemptState) (ha : a ≠ .gathering) : ((s.endForMode p).writeMode p r a).ListLaw := by
    refine (listLaw_setPen ended p ?_).of_pens rfl
    exact ⟨hr, by simp, by simp, by simp, by simp, fun _ => rfl, fun _ => rfl, (ended p).firstSeen_le,
      (ended p).frameCount_le, fun hg => absurd hg ha⟩
  have restarted : (((s.endForMode p).writeMode p r .ready).restart p).ListLaw := by
    unfold State.restart
    split
    · exact listLaw_startAttempt (written .ready (by simp)) p
    · exact written .ready (by simp)
  unfold State.changeMode
  split
  · have off : (((s.endForMode p).writeMode p r .off).turnTrackerOff p).ListLaw :=
      listLaw_turnTrackerOff (written .off (by simp)) p
    unfold State.releaseLock
    split
    · exact off.of_pens rfl
    · exact off
  all_goals exact restarted

/-- R118, R120: the region attempt of a lawful pen never gathers. -/
theorem listLaw_regionFramePassage {s : State} (h : s.ListLaw) (pens : s.PenLaw) (p : Pen) :
    (s.regionFramePassage p).ListLaw := by
  have same (q : Pen) (hq : p ≠ q) : SamePen q s (s.regionFramePassage p) :=
    (samePen_keeps q s).regionFramePassage s p hq (.refl q s)
  unfold State.regionFramePassage at same ⊢
  cases hphase : (s.regionTest p).phase with
  | idle => exact h
  | waiting =>
    have ha : (s.pen p).attempt = .regionWait := (pens.law p).2.1.1 hphase
    exact listLaw_setPen (h.of_pens rfl) p ((h p).enters (by simp [ha]) (by simp) (s.pen p).lastOutcome)
  | counting =>
    simp only [hphase] at same ⊢
    have ha : (s.pen p).attempt = .regionCount := (pens.law p).2.2.1.1 hphase
    unfold State.evaluateRegion at same ⊢
    dsimp only at same ⊢
    split at same
    · refine h.acted same ?_
      obtain ⟨a, last, hn, heq⟩ := State.claimOutcome_pen (s.setRegionTest p { s.regionTest p with phase := .idle }) p
        (.region _ (s.regionTest p).latched (s.regionTest p).saturatedSeen) (.inr ⟨_, _, _, rfl⟩)
      rw [heq]
      exact (h p).enters (by simp [ha]) hn last
    · exact listLaw_endMiss (s := s.setRegionTest p { s.regionTest p with phase := .idle }) (h.of_pens rfl) p _
        (.inr ⟨_, _, rfl⟩)

theorem listLaw_deliver {s : State} (h : s.ListLaw) {p : Pen} {o : HeldOutcome} (free : s.entryFree = true)
    (ha : (s.pen p).attempt = .holding o) : (s.deliver p o).ListLaw := by
  refine h.acted (fun q hq => (samePen_keeps q s).deliver s p hq o free nofun (.refl q s)) ?_
  obtain ⟨key, last, heq⟩ := s.deliver_pen p o (.inl (by simp [PenView.InRegion, State.view, ha]))
  rw [heq]
  exact (h p).enters (by simp [ha]) ((s.pen p).afterDelivery_ne_gathering key) last

/-! ### Each action keeps the law of the lists -/

theorem ModeRecord.reset_law : ModeRecord.reset.Law :=
  ⟨by decide, by decide, by decide, by decide, by decide, by decide, by decide⟩

theorem PenEngine.reset_law : PenEngine.reset.Law :=
  ⟨ModeRecord.reset_law, by decide, by decide, by decide, by decide, fun _ => rfl, fun _ => rfl, by decide, by decide,
    by decide⟩

theorem PenEngine.linkReset_law (e : PenEngine) : e.linkReset.Law :=
  PenEngine.reset_law.quiet rfl rfl (exclusionsOk_nil _) PenEngine.reset_law.firstSeen_le PenEngine.reset_law.frameCount_le
    (by simp [PenEngine.linkReset, PenEngine.reset])

theorem reset_listLaw : State.reset.ListLaw := fun p => by cases p <;> exact PenEngine.reset_law

theorem resetAll_listLaw (s : State) : s.resetAll.ListLaw := fun p => by
  cases p
  · exact s.pens.a.linkReset_law
  · exact s.pens.b.linkReset_law

/-- The lists are kept where the law of the pens holds. -/
def State.ListPenLaw (s : State) : Prop := s.ListLaw ∧ s.PenLaw

theorem listPenLaw_actions : ActionsKeep State.ListPenLaw where
  others s l d v q n h := ⟨h.1, penLaw_actions.others s l d v q n h.2⟩
  powerOn := ⟨reset_listLaw, reset_penLaw⟩
  resetAll s _ := ⟨resetAll_listLaw s, resetAll_penLaw s⟩
  raiseFault s k c h := ⟨h.1.of_pens (State.raiseFault_pens ..), penLaw_actions.raiseFault s k c h.2⟩
  fixCrosses s h := ⟨h.1, penLaw_actions.fixCrosses s h.2⟩
  beam s b hb h := ⟨h.1, penLaw_actions.beam s b hb h.2⟩
  injection s l hl h := ⟨h.1, penLaw_actions.injection s l hl h.2⟩
  segments s t ht h := ⟨h.1, penLaw_actions.segments s t ht h.2⟩
  records s t ht h := ⟨h.1, penLaw_actions.records s t ht h.2⟩
  rewrite s r hr h := ⟨h.1, penLaw_actions.rewrite s r hr h.2⟩
  channels s u hq hl ht h := ⟨h.1, penLaw_actions.channels s u hq hl ht h.2⟩
  menu s m hm ho h := ⟨h.1, penLaw_actions.menu s m hm ho h.2⟩
  forceItem s t n k free ht h := by
    refine ⟨h.1.of_pens ?_, penLaw_actions.forceItem s t n k free ht h.2⟩
    unfold State.forceItem at ht
    split at ht
    · cases ht
    · split at ht
      · cases ht; rfl
      · cases ht
  reply s r c free h := ⟨h.1, penLaw_actions.reply s r c free h.2⟩
  changeMode s p r hr h := ⟨listLaw_changeMode h.1 p hr, penLaw_actions.changeMode s p r hr h.2⟩
  setFence s p f h := ⟨listLaw_setPen h.1 p (h.1 p), penLaw_actions.setFence s p f h.2⟩
  clearExclusions s p h := by
    refine ⟨listLaw_setPen h.1 p ?_, penLaw_actions.clearExclusions s p h.2⟩
    obtain ⟨h1, h2, h3, -, -, -, h7⟩ := h.1 p
    exact ⟨h1, h2, h3, by simp, by simp, fun _ => rfl, h7⟩
  setTrack s p point pitch coast hm hp hlo hhi h1 h15 h :=
    ⟨listLaw_setTrack h.1 p point pitch coast,
      penLaw_actions.setTrack s p point pitch coast hm hp hlo hhi h1 h15 h.2⟩
  turnTrackerOff s p h :=
    ⟨listLaw_turnTrackerOff h.1 p, penLaw_actions.turnTrackerOff s p h.2⟩
  countBoundary s seg p0 p1 h := by
    refine ⟨h.1.of_pens ?_, penLaw_actions.countBoundary s seg p0 p1 h.2⟩
    unfold State.countBoundary
    split <;> rfl
  regionFramePassage s p h := ⟨listLaw_regionFramePassage h.1 h.2 p, penLaw_actions.regionFramePassage s p h.2⟩
  menuFramePassage s h := ⟨h.1.of_pens (State.menuFramePassage_pens s), penLaw_actions.menuFramePassage s h.2⟩
  penFrameClose s p h := ⟨listLaw_penFrameClose h.1 p, penLaw_actions.penFrameClose s p h.2⟩
  trackerFrameClose s p h := ⟨listLaw_trackerFrameClose h.1 p, penLaw_actions.trackerFrameClose s p h.2⟩
  hit s p key strike hs h := ⟨listLaw_hit h.1 p key strike, penLaw_actions.hit s p key strike hs h.2⟩
  crossHit s p arm k h := ⟨h.1.of_pens (State.crossHit_pens ..), penLaw_actions.crossHit s p arm k h.2⟩
  penTipDown s p h := ⟨listLaw_penTipDown h.1 p, penLaw_actions.penTipDown s p h.2⟩
  penTipUp s p h := ⟨listLaw_penTipUp h.1 p, penLaw_actions.penTipUp s p h.2⟩
  trackerTipUp s p h := ⟨listLaw_trackerTipUp h.1 p, penLaw_actions.trackerTipUp s p h.2⟩
  penExpiry s p h := ⟨listLaw_penExpiry h.1 p, penLaw_actions.penExpiry s p h.2⟩
  trackerExpiry s p h := ⟨listLaw_trackerExpiry h.1 p, penLaw_actions.trackerExpiry s p h.2⟩
  accepts s n rest hq more h := ⟨h.1, penLaw_actions.accepts s n rest hq more h.2⟩
  frees s n rest hq h := ⟨h.1, penLaw_actions.frees s n rest hq h.2⟩
  deliver s p o free ha h := ⟨listLaw_deliver h.1 free ha, penLaw_actions.deliver s p o free ha h.2⟩
  grantTrack s p free h := by
    refine ⟨h.1.of_pens ?_, penLaw_actions.grantTrack s p free h.2⟩
    unfold State.grantTrack
    split <;> rfl
  grantPosition s p free hq h := by
    refine ⟨h.1.of_pens ?_, penLaw_actions.grantPosition s p free hq h.2⟩
    unfold State.grantPosition
    split <;> rfl
  grantIdleReturn s free h := by
    refine ⟨h.1.of_pens ?_, penLaw_actions.grantIdleReturn s free h.2⟩
    unfold State.grantIdleReturn
    split <;> rfl

/-- Settles O56: every action keeps the lists of both pens, where the law of the pens holds. -/
theorem stepKeepsTheLists : Obligations.StepKeepsTheLists :=
  fun s t hl hp ht => (listPenLaw_actions.step s t ⟨hl, hp⟩ ht).1

end Sys2Proof.Machine
end

section
/-! The Control Decoder, the load cursor and the fault record (O60). -/

namespace Sys2Proof.Machine

/-- The two laws that O60 keeps. -/
def State.ControlLaw (s : State) : Prop := s.DecoderLaw ∧ s.SupervisorLaw

/-- R161: the load cursor, and the end flag that only the last segment sets. -/
def ControlDecoder.CursorLaw (d : ControlDecoder) : Prop :=
  1 ≤ d.cursor ∧ d.cursor ≤ 1023 ∧ (d.endFlag = true → d.cursor = 1023)

/-- R2, R158: an order takes effect while the Decoder is IDLE and no word is held. -/
def State.Listening (s : State) : Prop := s.decoder.state = .idle ∧ s.link.held = none

/-- R158, R163: a QUERY or FORCE ITEM. -/
def isClaimingOrder (ctrl : Word) : Prop :=
  wordKind ctrl = .ctrl ∧
    (orderOfCode (ctrlCode ctrl) = some .query ∨ orderOfCode (ctrlCode ctrl) = some .forceItem)

/-! ### What the laws read -/

/-- The state `t` reads as `s` does in what the Decoder's law and the Supervisor's law look at: its Flight List is
empty only where that of `s` is, and a cross dot is left only where one was. -/
structure SameControl (s t : State) : Prop where
  held : t.link.held = s.link.held
  decoder : t.decoder = s.decoder
  flight : s.beam.flight ≠ [] → t.beam.flight ≠ []
  injection : t.injection ≠ [] → s.injection ≠ []
  supervisor : t.supervisor = s.supervisor

theorem SameControl.refl (s : State) : SameControl s s := ⟨rfl, rfl, id, id, rfl⟩

theorem SameControl.trans {s t u : State} (h : SameControl s t) (k : SameControl t u) : SameControl s u :=
  ⟨k.held.trans h.held, k.decoder.trans h.decoder, k.flight ∘ h.flight, h.injection ∘ k.injection,
    k.supervisor.trans h.supervisor⟩

theorem SameControl.of_eq {s t : State} (hl : t.link = s.link) (hd : t.decoder = s.decoder) (hb : t.beam = s.beam)
    (hi : t.injection = s.injection) (hv : t.supervisor = s.supervisor) : SameControl s t :=
  ⟨by rw [hl], hd, by rw [hb]; exact id, by rw [hi]; exact id, hv⟩

theorem decoderLaw_of_reads {s t : State} (h : s.DecoderLaw) (held : t.link.held = s.link.held)
    (decoder : t.decoder = s.decoder) (flight : s.beam.flight ≠ [] → t.beam.flight ≠ [])
    (injection : t.injection ≠ [] → s.injection ≠ []) : t.DecoderLaw := by
  unfold State.DecoderLaw at h ⊢
  rw [held, decoder]
  obtain ⟨hcollect, hheld, hdrain, hdots, hcursor⟩ := h
  exact ⟨hcollect, hheld, fun hd => ⟨(hdrain hd).1, flight (hdrain hd).2⟩, fun hi => hdots (injection hi), hcursor⟩

theorem supervisorLaw_of_eq {s t : State} (h : s.SupervisorLaw) (hv : t.supervisor = s.supervisor) :
    t.SupervisorLaw := by
  unfold State.SupervisorLaw at h ⊢
  rw [hv]
  exact h

theorem SameControl.law {s t : State} (k : SameControl s t) (h : s.ControlLaw) : t.ControlLaw :=
  ⟨decoderLaw_of_reads h.1 k.held k.decoder k.flight k.injection, supervisorLaw_of_eq h.2 k.supervisor⟩

theorem State.DecoderLaw.cursorLaw {s : State} (h : s.DecoderLaw) : s.decoder.CursorLaw := by
  obtain ⟨-, -, -, -, hcursor⟩ := h
  exact hcursor

/-- R1: while a word is held, the Decoder is IDLE. -/
theorem State.DecoderLaw.idle_of_held {s : State} (h : s.DecoderLaw) {w : Word} (hw : s.link.held = some w) :
    s.decoder.state = .idle := by
  obtain ⟨hcollect, hheld, hdrain, -, -⟩ := h
  cases hs : s.decoder.state with
  | idle => rfl
  | collecting ctrl got => exact absurd (hcollect ctrl got hs).1 (by simp [hw])
  | held ctrl => exact absurd (hheld ctrl hs).1 (by simp [hw])
  | drain => exact absurd (hdrain hs).1 (by simp [hw])

/-- R95: without a held word no cross dot waits. -/
theorem State.DecoderLaw.no_dots {s : State} (h : s.DecoderLaw) (hw : s.link.held = none) : s.injection = [] := by
  obtain ⟨-, -, -, hdots, -⟩ := h
  by_contra hi
  obtain ⟨w, hheld, -⟩ := hdots hi
  rw [hw] at hheld
  cases hheld

theorem decoderLaw_of_idle {s : State} (hs : s.decoder.state = .idle)
    (hdots : s.injection ≠ [] → ∃ w, s.link.held = some w ∧ wordKind w = .frame) (hc : s.decoder.CursorLaw) :
    s.DecoderLaw := by
  unfold State.DecoderLaw
  rw [hs]
  exact ⟨nofun, nofun, nofun, hdots, hc⟩

/-! ### Resets -/

theorem controlLaw_of_reset {s : State} (hd : s.decoder = ControlDecoder.reset) (hi : s.injection = [])
    (hv : s.supervisor = Supervisor.reset) : s.ControlLaw := by
  refine ⟨decoderLaw_of_idle (by rw [hd]; rfl) (by simp [hi]) (by rw [hd]; exact ⟨le_rfl, by decide, nofun⟩), ?_⟩
  unfold State.SupervisorLaw
  rw [hv]
  exact ⟨by decide, nofun, fun _ => rfl, ⟨fun _ => rfl, fun _ => rfl⟩, nofun⟩

theorem resetAll_controlLaw (s : State) : s.resetAll.ControlLaw := controlLaw_of_reset rfl rfl rfl

/-! ### The fault record and the frame timer (R169 to R175) -/

theorem stickyWith_ne_zero (sticky : BitVec 6) (kind : FaultKind) : stickyWith sticky kind ≠ 0 := by
  intro h
  have bit : 1#6 <<< faultCode kind = 0 := (BitVec.or_eq_zero_iff.1 h).2
  cases kind <;> exact absurd bit (by decide)

theorem firstWith_ne_none (first : Option (FaultKind × Word)) (kind : FaultKind) (context : Word) :
    firstWith first kind context ≠ none := by
  cases first <;> exact Option.some_ne_none _

/-- R174: a fault leaves the timer alone, and its kind is in the sticky set. -/
theorem raiseFault_supervisorLaw {s : State} (h : s.SupervisorLaw) (k : FaultKind) (c : Word) :
    (s.raiseFault k c).SupervisorLaw := by
  obtain ⟨hset, hrun, hoff, -, -⟩ := h
  have recorded := firstWith_ne_none s.supervisor.first k c
  have known : firstWith s.supervisor.first k c = none ↔ stickyWith s.supervisor.sticky k = 0#6 :=
    iff_of_false recorded (stickyWith_ne_zero _ k)
  unfold State.raiseFault
  dsimp only
  split
  · exact ⟨hset, hrun, hoff, known, fun _ => recorded⟩
  · exact ⟨hset, hrun, hoff, known, fun _ => recorded⟩

theorem raiseFault_controlLaw {s : State} (h : s.ControlLaw) (k : FaultKind) (c : Word) :
    (s.raiseFault k c).ControlLaw :=
  ⟨decoderLaw_of_reads h.1 (by simp) (by simp) (by simp) (by simp), raiseFault_supervisorLaw h.2 k c⟩

/-- R169: a setting starts a timer with time left, and 0 leaves it OFF. -/
theorem timerOfSetting_law (n : Nat) :
    (∀ ms, timerOfSetting n = .running ms → 1 ≤ ms ∧ ms ≤ 10 * n) ∧ (timerOfSetting n = .off → n = 0) := by
  unfold timerOfSetting
  split
  · next hz => exact ⟨nofun, fun _ => hz⟩
  · next hz =>
    refine ⟨fun ms h => ?_, nofun⟩
    cases h
    simp only [Config.msPerStep]
    omega

/-- The Supervisor's law of a state whose timer and setting are replaced. -/
theorem supervisorLaw_retimed {s : State} (h : s.SupervisorLaw) {n : Nat} (hn : n ≤ 255) {timer : TimerState}
    (hrun : ∀ ms, timer = .running ms → 1 ≤ ms ∧ ms ≤ 10 * n) (hoff : timer = .off → n = 0) :
    State.SupervisorLaw { s with supervisor := { s.supervisor with setting := n, timer := timer } } := by
  obtain ⟨-, -, -, hfirst, hlost⟩ := h
  exact ⟨hn, hrun, hoff, hfirst, hlost⟩

/-- R169: at a frame close a timer that is not OFF starts again with the setting. -/
theorem Supervisor.frameClose_eq (v : Supervisor) :
    v.frameClose = v ∨ v.frameClose = { v with setting := v.setting, timer := timerOfSetting v.setting } := by
  unfold Supervisor.frameClose
  split
  · exact .inl rfl
  · exact .inr rfl
  · exact .inr rfl

theorem frameClose_controlLaw {s : State} (h : s.ControlLaw) (order : List CloseBlock) :
    (s.frameClose order).ControlLaw := by
  refine ⟨decoderLaw_of_reads h.1 (by simp) (by simp) (by simp) (by simp), ?_⟩
  obtain hv | hv := s.supervisor.frameClose_eq
  · exact supervisorLaw_of_eq h.2 (by simp [hv])
  · obtain ⟨hrun, hoff⟩ := timerOfSetting_law s.supervisor.setting
    exact supervisorLaw_of_eq (supervisorLaw_retimed h.2 h.2.1 hrun hoff) (by simp [hv])

theorem sameControl_blockExpiry (s : State) (b : CloseBlock) : SameControl s (s.blockExpiry b) :=
  .of_eq (by simp) (by simp) (by simp) (by simp) (by simp)

theorem expire_controlLaw {s : State} (h : s.ControlLaw) (order : List Pen) : (s.expire order).ControlLaw := by
  have stalled : State.ControlLaw { s with supervisor := { s.supervisor with timer := .stalled } } :=
    ⟨h.1, supervisorLaw_retimed h.2 h.2.1 nofun nofun⟩
  exact foldl_keeps_law _ (fun a b ha => (sameControl_blockExpiry a b).law ha) _ _
    (raiseFault_controlLaw stalled .stall s.stallContext)

theorem tick_controlLaw {s : State} (h : s.ControlLaw) : s.tick.ControlLaw := by
  unfold State.tick
  split
  · next ms hms =>
    split
    · exact expire_controlLaw h (Config.expiryOrder s.draws)
    · next hlate =>
      obtain ⟨hset, hrun, -, -, -⟩ := h.2
      obtain ⟨-, hmost⟩ := hrun ms hms
      refine ⟨h.1, supervisorLaw_retimed h.2 hset (fun n hn => ?_) nofun⟩
      cases hn
      omega
  · exact h
  · exact h

/-! ### Passages (01) -/

/-- What a passage keeps for the two laws, beside the held word that it sends on. -/
structure Passes (s t : State) : Prop where
  decoder : t.decoder = s.decoder
  injection : t.injection = s.injection
  law : s.SupervisorLaw → t.SupervisorLaw

/-- R3: a passage empties the holding place. A FRAME waits for the cross dots, so none is left. -/
theorem passHeld_controlLaw {s : State} (h : s.ControlLaw) {k : WordKind} {pass : Word → State}
    (hk : k = .frame → s.injection = []) (hp : ∀ w, Passes s (pass w)) : (s.passHeld k pass).ControlLaw := by
  unfold State.passHeld
  split
  · next w hw =>
    split
    · next hkind =>
      have dots : s.injection = [] := by
        by_contra hne
        obtain ⟨-, -, -, hdots, -⟩ := h.1
        obtain ⟨x, hx, hf⟩ := hdots hne
        rw [hw] at hx
        cases hx
        exact hne (hk (hkind.1.symm.trans hf))
      have p := hp w
      refine ⟨decoderLaw_of_idle ?_ ?_ ?_, p.law h.2⟩
      · rw [p.decoder]; exact h.1.idle_of_held hw
      · rw [p.injection]; exact fun hne => absurd dots hne
      · rw [p.decoder]; exact h.1.cursorLaw
    · exact h
  · exact h

theorem passes_countBoundary (s t : State) (h : Passes s t) (seg : Nat) (p0 p1 : Point) :
    Passes s (t.countBoundary seg p0 p1) := by
  unfold State.countBoundary
  split
  · exact h
  · exact ⟨h.decoder, h.injection, h.law⟩

/-- R6 to R10: the entry of a passage, and the beam state after it, are none of the Decoder's. -/
theorem passes_sent (s : State) (sent : Word) (e : Entry) (b : BeamFollower) :
    Passes s { s.sendHeld sent e with beam := b } := ⟨rfl, rfl, id⟩

theorem passes_passReserved (s : State) (w : Word) : Passes s (s.passReserved w) :=
  ⟨by rw [State.passReserved, State.raiseFault_decoder]; rfl,
    by rw [State.passReserved, State.raiseFault_injection]; rfl,
    fun h => raiseFault_supervisorLaw (s := s.passPass w) h .badOrder w⟩

theorem passes_passFrame (s : State) (order : List PassageBlock) (w : Word) : Passes s (s.passFrame order w) :=
  foldl_keeps_law State.blockPassage
    (fun t b ht => ⟨by simp [ht.decoder], by simp [ht.injection], fun h => supervisorLaw_of_eq (ht.law h) (by simp)⟩)
    _ _ ⟨rfl, rfl, id⟩

theorem passCrossDot_controlLaw {s : State} (h : s.ControlLaw) : s.passCrossDot.ControlLaw := by
  unfold State.passCrossDot
  split
  · exact h
  · next d rest hd =>
    split
    · exact ⟨decoderLaw_of_reads h.1 rfl rfl (by simp) (by simp [hd]), h.2⟩
    · exact h

/-! ### Retires and strikes (01) -/

/-- R14: what a removed entry does leaves the Decoder and the entries that stay. -/
theorem State.retired_reads (s : State) (order : List CloseBlock) (e : Entry) :
    (s.retired order e).decoder = s.decoder ∧ (s.retired order e).beam.flight = s.beam.flight := by
  unfold State.retired
  split <;> simp

theorem retired_controlLaw {s : State} (h : s.ControlLaw) (order : List CloseBlock) (e : Entry) :
    (s.retired order e).ControlLaw := by
  have glow (x : Option Entry) : State.ControlLaw { s with beam := { s.beam with afterglow := x } } :=
    SameControl.law ⟨rfl, rfl, id, id, rfl⟩ h
  unfold State.retired
  cases e.kind with
  | seg => exact h
  | pass => exact h
  | frame => exact frameClose_controlLaw (glow none) order
  | move => exact glow _
  | line => exact glow _
  | step => exact glow _
  | dot => exact glow _
  | glyph => exact glow _

/-- R167: the retire that empties the Flight List in DRAIN is the reset; any other leaves DRAIN its entries. -/
theorem takeRetire_controlLaw {s : State} (h : s.ControlLaw) (order : List CloseBlock) :
    (s.takeRetire order).ControlLaw := by
  unfold State.takeRetire
  split
  · exact raiseFault_controlLaw h _ _
  · next e rest hf =>
    obtain ⟨hdec, hflight⟩ := State.retired_reads { s with beam := { s.beam with flight := rest } } order e
    unfold State.endDrain
    rw [hdec, hflight]
    split
    · exact resetAll_controlLaw _
    · next hnot =>
      obtain ⟨hcollect, hheld, hdrain, hrest⟩ := h.1
      have popped : State.ControlLaw { s with beam := { s.beam with flight := rest } } :=
        ⟨⟨hcollect, hheld, fun hd => ⟨(hdrain hd).1, fun hempty => hnot ⟨hd, hempty⟩⟩, hrest⟩, h.2⟩
      exact retired_controlLaw popped order e

theorem strikeList_ne_nil {l : List Entry} (h : l ≠ []) (p : Pen) : strikeList p l ≠ [] := by
  cases l with
  | nil => exact absurd rfl h
  | cons e rest =>
    unfold strikeList
    split <;> exact List.cons_ne_nil _ _

theorem sameControl_deliverStrike (s : State) (p : Pen) (e : Entry) : SameControl s (s.deliverStrike p e) := by
  have hit (key : Key) (strike : Point) : SameControl s (s.hit p key strike) :=
    .of_eq (by simp) (by simp) (by simp) (by simp) (by simp)
  have crossHit (arm : Arm) (k : Nat) : SameControl s (s.crossHit p arm k) :=
    .of_eq (by simp) (by simp) (by simp) (by simp) (by simp)
  unfold State.deliverStrike
  split
  · split
    · exact hit _ _
    · exact .refl s
  · split
    · exact crossHit _ _
    · exact .refl s

theorem sameControl_takeStrike (s : State) (p : Pen) : SameControl s (s.takeStrike p) := by
  have delivered (b : BeamFollower) (e : Entry) (hb : s.beam.flight ≠ [] → b.flight ≠ []) :
      SameControl s (State.deliverStrike { s with beam := b } p e) :=
    SameControl.trans (t := { s with beam := b }) ⟨rfl, rfl, hb, id, rfl⟩ (sameControl_deliverStrike _ p e)
  unfold State.takeStrike
  split
  · split
    · exact .refl s
    · exact delivered _ _ fun hne => strikeList_ne_nil hne p
  · split
    · split
      · exact .refl s
      · exact delivered _ _ id
    · exact .refl s

/-! ### Pens and trackers -/

theorem ne_nil_of_filter_ne_nil {α : Type} {f : α → Bool} {l : List α} (h : l.filter f ≠ []) : l ≠ [] := by
  rintro rfl
  exact h rfl

theorem sameControl_dropDots (s : State) (p : Pen) : SameControl s (s.dropDots p) :=
  ⟨rfl, rfl, id, ne_nil_of_filter_ne_nil, rfl⟩

theorem sameControl_setTracker (s : State) (p : Pen) (t : Tracker) : SameControl s (s.setTracker p t) :=
  .of_eq rfl rfl rfl rfl rfl

theorem sameControl_notifyIfLocked (s : State) (p : Pen) (b : TrackState) : SameControl s (s.notifyIfLocked p b) :=
  .of_eq (by simp) (by simp) (by simp) (by simp) (by simp)

theorem sameControl_positionRequest (s : State) (p : Pen) (r : PositionClaim) :
    SameControl s (s.positionRequest p r) :=
  .of_eq (by simp) (by simp) (by simp) (by simp) (by simp)

theorem sameControl_turnTrackerOff (s : State) (p : Pen) : SameControl s (s.turnTrackerOff p) :=
  ((sameControl_setTracker s p _).trans (sameControl_dropDots _ p)).trans (sameControl_notifyIfLocked _ p _)

theorem sameControl_dragEnd (s : State) (p : Pen) : SameControl s (s.dragEnd p) :=
  (((sameControl_setTracker s p _).trans (sameControl_dropDots _ p)).trans
    (sameControl_positionRequest _ p _)).trans (sameControl_notifyIfLocked _ p _)

theorem sameControl_trackerTipUp (s : State) (p : Pen) : SameControl s (s.trackerTipUp p) := by
  unfold State.trackerTipUp
  dsimp only
  split
  · exact sameControl_dragEnd s p
  · exact .refl s

theorem sameControl_setTrack (s : State) (p : Pen) (point : Point) (pitch coast : Nat) :
    SameControl s (s.setTrack p point pitch coast) :=
  (sameControl_setTracker s p _).trans (sameControl_notifyIfLocked _ p _)

theorem sameControl_penTipDown (s : State) (p : Pen) : SameControl s (s.penTipDown p) :=
  .of_eq (by simp) (by simp) (by simp) (by simp) (by simp)

theorem sameControl_penTipUp (s : State) (p : Pen) : SameControl s (s.penTipUp p) :=
  .of_eq (by simp) (by simp) (by simp) (by simp) (by simp)

/-! ### PEN MODE (R69) -/

theorem sameControl_endForMode (s : State) (p : Pen) : SameControl s (s.endForMode p) := by
  have miss : SameControl s (s.endMiss p .aborted .ready) :=
    .of_eq (by simp) (by simp) (by simp) (by simp) (by simp)
  unfold State.endForMode
  split
  · exact miss
  · exact miss
  · exact miss
  · exact .of_eq rfl rfl rfl rfl rfl
  all_goals exact .refl s

theorem sameControl_changeMode (s : State) (p : Pen) (r : ModeRecord) : SameControl s (s.changeMode p r) := by
  have written (a : AttemptState) : SameControl s ((s.endForMode p).writeMode p r a) :=
    (sameControl_endForMode s p).trans (.of_eq rfl rfl rfl rfl rfl)
  have restart (t : State) : SameControl t (t.restart p) := by
    unfold State.restart
    split
    · exact .of_eq (by simp) (by simp) (by simp) (by simp) (by simp)
    · exact .refl t
  have release (t : State) : SameControl t (t.releaseLock p) := by
    unfold State.releaseLock
    split
    · exact .of_eq rfl rfl rfl rfl rfl
    · exact .refl t
  unfold State.changeMode
  split
  · exact ((written .off).trans (sameControl_turnTrackerOff _ p)).trans (release _)
  all_goals exact (written .ready).trans (restart _)

/-! ### Orders that claim an entry, and the grants (R150, R163) -/

theorem sameControl_forceItem {s t : State} {n k : Nat} (h : s.forceItem n k = some t) : SameControl s t := by
  unfold State.forceItem at h
  split at h
  · cases h
  · split at h
    · cases h; exact .of_eq rfl rfl rfl rfl rfl
    · cases h

/-- R163: a held order takes effect without a word for the Decoder. -/
theorem effectHeld_controlLaw {s : State} (h : s.ControlLaw) (ctrl : Word) : (s.effectHeld ctrl).ControlLaw := by
  unfold State.effectHeld
  split
  · unfold State.effectForceItem
    split
    · next t ht => exact (sameControl_forceItem ht).law h
    · exact raiseFault_controlLaw h _ _
  · unfold State.answerQuery
    split
    · unfold State.afterReply
      split
      · obtain ⟨hd, hset, hrun, hoff, -⟩ := h
        exact ⟨hd, hset, hrun, hoff, iff_of_true rfl rfl, nofun⟩
      · exact h
    · exact h

theorem claimEntry_controlLaw {s : State} (h : s.ControlLaw) (ready : s.Listening) {ctrl : Word}
    (hc : isClaimingOrder ctrl) : (s.claimEntry ctrl).ControlLaw := by
  unfold State.claimEntry
  split
  · exact effectHeld_controlLaw h ctrl
  · refine ⟨⟨nofun, fun c hx => ?_, nofun, ?_⟩, h.2⟩
    · cases hx
      exact ⟨ready.2, hc⟩
    · obtain ⟨-, -, -, hrest⟩ := h.1
      exact hrest

/-- R158, R163: the Decoder returns to IDLE. -/
theorem released_controlLaw {s : State} (h : s.ControlLaw) :
    State.ControlLaw { s with decoder := { s.decoder with state := .idle } } := by
  obtain ⟨⟨-, -, -, hdots, hcursor⟩, hsup⟩ := h
  exact ⟨⟨nofun, nofun, nofun, hdots, hcursor⟩, hsup⟩

theorem grantDecoder_controlLaw {s : State} (h : s.ControlLaw) : s.grantDecoder.ControlLaw := by
  unfold State.grantDecoder
  split
  · exact effectHeld_controlLaw (released_controlLaw h) _
  all_goals exact h

theorem sameControl_deliver (s : State) (p : Pen) (o : HeldOutcome) : SameControl s (s.deliver p o) :=
  .of_eq (by simp) (by simp) (by simp) (by simp) (by simp)

theorem grant_controlLaw {s : State} (h : s.ControlLaw) (c : Claimant) : (s.grant c).ControlLaw := by
  cases c with
  | decoder => exact grantDecoder_controlLaw h
  | penEngine p =>
    simp only [State.grant, State.grantPen]
    split
    · exact (SameControl.trans (.of_eq rfl rfl rfl rfl rfl) (sameControl_deliver _ p _)).law h
    all_goals exact h
  | track p =>
    simp only [State.grant, State.grantTrack]
    split
    · exact SameControl.law (.of_eq rfl rfl rfl rfl rfl) h
    · exact h
  | position p =>
    simp only [State.grant, State.grantPosition]
    split
    · exact SameControl.law (.of_eq rfl rfl rfl rfl rfl) h
    · exact h
  | idleReturn =>
    simp only [State.grant, State.grantIdleReturn]
    split
    · exact SameControl.law (.of_eq rfl rfl rfl rfl rfl) h
    · exact h

theorem grantRound_controlLaw (n : Nat) {s : State} (h : s.ControlLaw) : (State.grantRound n s).ControlLaw := by
  induction n generalizing s with
  | zero => exact h
  | succ n ih =>
    unfold State.grantRound
    split
    · exact h
    · exact ih (grant_controlLaw h _)

theorem acceptWord_controlLaw {s : State} (h : s.ControlLaw) : s.acceptWord.ControlLaw := by
  unfold State.acceptWord
  split
  · next f hf =>
    refine grantRound_controlLaw _ ?_
    unfold State.freeing at hf
    split at hf
    · cases hf
    · split at hf
      · cases hf
      · cases hf; exact h
  · split
    · exact h
    · exact h

theorem grantAtFreeing_controlLaw {s : State} (h : s.ControlLaw) (c : Claimant) :
    (s.grantAtFreeing c).ControlLaw := by
  unfold State.grantAtFreeing
  split
  · split
    · exact acceptWord_controlLaw h
    · exact h
  · exact h

/-! ### The loads (R161, R162) -/

theorem ControlDecoder.CursorLaw.advanced {d : ControlDecoder} (h : d.CursorLaw) : d.advanced.CursorLaw := by
  obtain ⟨hlo, hhi, hend⟩ := h
  unfold ControlDecoder.advanced
  split
  · next hlt =>
    simp only [Config.lastSegment] at hlt
    exact ⟨by simp only; omega, by simp only; omega, fun he => by have := hend he; omega⟩
  · next hge =>
    simp only [Config.lastSegment] at hge
    exact ⟨hlo, hhi, fun _ => by simp only; omega⟩

theorem ControlDecoder.advanced_state (d : ControlDecoder) : d.advanced.state = d.state := by
  unfold ControlDecoder.advanced
  split <;> rfl

/-- What a change of the Decoder's registers keeps, while the Decoder is IDLE and no word is held. -/
theorem controlLaw_of_listening {s t : State} (h : s.ControlLaw) (ready : s.Listening)
    (hi : t.injection = s.injection) (hv : t.supervisor = s.supervisor) (hs : t.decoder.state = s.decoder.state)
    (hc : t.decoder.CursorLaw) : t.ControlLaw :=
  ⟨decoderLaw_of_idle (hs.trans ready.1) (by rw [hi, h.1.no_dots ready.2]; exact fun hne => absurd rfl hne) hc,
    supervisorLaw_of_eq h.2 hv⟩

theorem writeImage_controlLaw {s : State} (h : s.ControlLaw) (ready : s.Listening) (now : Bool) (img : Image) :
    (s.writeImage now img).ControlLaw ∧ (s.writeImage now img).Listening := by
  have state := s.decoder.advanced_state
  exact ⟨controlLaw_of_listening h ready rfl rfl state h.1.cursorLaw.advanced, state.trans ready.1, ready.2⟩

theorem loadImages_controlLaw (now : Bool) (ctrl : Word) (imgs : List Image) {s : State} (h : s.ControlLaw)
    (ready : s.Listening) : (State.loadImages now ctrl imgs s).ControlLaw := by
  induction imgs generalizing s with
  | nil => exact h
  | cons img rest ih =>
    obtain ⟨law, listening⟩ := writeImage_controlLaw h ready now img
    unfold State.loadImages
    split
    · exact raiseFault_controlLaw h _ _
    · exact ih law listening

/-! ### The last word of an order (R159, R160) -/

section Orders

variable {s : State} (h : s.ControlLaw)
include h

theorem badValue_controlLaw (ctrl : Word) : (s.badValue ctrl).ControlLaw := raiseFault_controlLaw h _ _

theorem orderSegCursor_controlLaw (ready : s.Listening) (ctrl : Word) : (s.orderSegCursor ctrl).ControlLaw := by
  unfold State.orderSegCursor
  dsimp only
  split
  · next hn => exact controlLaw_of_listening h ready rfl rfl rfl ⟨hn.1, hn.2, nofun⟩
  · exact badValue_controlLaw h ctrl

theorem orderSegLoad_controlLaw (ready : s.Listening) (now : Bool) (ctrl : Word) (data : List Word) :
    (s.orderSegLoad now ctrl data).ControlLaw := by
  unfold State.orderSegLoad
  split
  · exact loadImages_controlLaw now ctrl _ h ready
  · exact badValue_controlLaw h ctrl

theorem orderSegShow_controlLaw (ctrl run : Word) : (s.orderSegShow ctrl run).ControlLaw := by
  unfold State.orderSegShow
  dsimp only
  split
  · exact foldl_keeps_law _ (fun a n ha => show (State.showSegment _ a n).ControlLaw from ha) _ s h
  · exact badValue_controlLaw h ctrl

theorem orderRegionLoad_controlLaw (ctrl record : Word) : (s.orderRegionLoad ctrl record).ControlLaw := by
  unfold State.orderRegionLoad
  dsimp only
  split
  · exact badValue_controlLaw h ctrl
  · exact h

theorem orderPageLoad_controlLaw (ctrl : Word) (data : List Word) : (s.orderPageLoad ctrl data).ControlLaw := by
  have page (n : Nat) (r : PageRecord) : (s.setPage n r).ControlLaw := h
  unfold State.orderPageLoad
  dsimp only
  split
  · split
    · exact badValue_controlLaw h ctrl
    · split
      · exact page _ _
      · exact badValue_controlLaw h ctrl
  · exact page _ _

theorem orderForceItem_controlLaw (ready : s.Listening) {ctrl : Word} (hc : isClaimingOrder ctrl) :
    (s.orderForceItem ctrl).ControlLaw := by
  unfold State.orderForceItem
  split
  · exact badValue_controlLaw h ctrl
  · exact claimEntry_controlLaw h ready hc

theorem orderQuery_controlLaw (ready : s.Listening) {ctrl : Word} (hc : isClaimingOrder ctrl) :
    (s.orderQuery ctrl).ControlLaw := by
  unfold State.orderQuery
  split
  · exact badValue_controlLaw h ctrl
  · exact claimEntry_controlLaw h ready hc

theorem orderPenMode_controlLaw (ctrl record : Word) : (s.orderPenMode ctrl record).ControlLaw := by
  unfold State.orderPenMode
  dsimp only
  split
  · exact (sameControl_changeMode s _ _).law h
  · exact badValue_controlLaw h ctrl

theorem orderPenFence_controlLaw (ctrl w1 w2 : Word) : (s.orderPenFence ctrl w1 w2).ControlLaw := by
  unfold State.orderPenFence
  split
  · exact SameControl.law (.of_eq rfl rfl rfl rfl rfl) h
  · exact badValue_controlLaw h ctrl

theorem orderTrackSet_controlLaw (ctrl point : Word) : (s.orderTrackSet ctrl point).ControlLaw := by
  unfold State.orderTrackSet
  dsimp only
  split
  · exact (sameControl_setTrack s _ _ _ _).law h
  · exact badValue_controlLaw h ctrl

theorem orderBlinkRate_controlLaw (ctrl : Word) : (s.orderBlinkRate ctrl).ControlLaw := by
  unfold State.orderBlinkRate
  dsimp only
  split
  · exact badValue_controlLaw h ctrl
  · exact h

theorem orderKeepTables_controlLaw (ctrl : Word) : (s.orderKeepTables ctrl).ControlLaw := by
  unfold State.orderKeepTables
  split
  · exact h
  · exact badValue_controlLaw h ctrl

theorem orderResetPart_controlLaw (ready : s.Listening) : s.orderResetPart.ControlLaw := by
  unfold State.orderResetPart
  split
  · exact resetAll_controlLaw s
  · next hflight =>
    obtain ⟨-, -, -, hrest⟩ := h.1
    exact ⟨⟨nofun, nofun, fun _ => ⟨ready.2, hflight⟩, hrest⟩, h.2⟩

theorem orderFrameTimeout_controlLaw (ctrl : Word) : (s.orderFrameTimeout ctrl).ControlLaw := by
  have hset := field_lt (ctrlArg ctrl) 0 8
  obtain ⟨hrun, hoff⟩ := timerOfSetting_law (field (ctrlArg ctrl) 0 8)
  rw [State.orderFrameTimeout_eq]
  refine ⟨h.1, supervisorLaw_retimed h.2 (by omega) ?_ ?_⟩
  · split
    · exact nofun
    · exact hrun
  · split
    · exact nofun
    · exact hoff

/-- Every order keeps the laws as it acts. -/
theorem act_controlLaw (ready : s.Listening) {o : OrderName} {ctrl : Word} (hk : wordKind ctrl = .ctrl)
    (ho : orderOfCode (ctrlCode ctrl) = some o) (data : List Word) : (s.act o ctrl data).ControlLaw := by
  cases o with
  | segCursor => exact orderSegCursor_controlLaw h ready ctrl
  | segLoad => exact orderSegLoad_controlLaw h ready false ctrl data
  | segLoadNow => exact orderSegLoad_controlLaw h ready true ctrl data
  | segShow => exact orderSegShow_controlLaw h ctrl _
  | regionLoad => exact orderRegionLoad_controlLaw h ctrl _
  | pageLoad => exact orderPageLoad_controlLaw h ctrl data
  | menuRoot => exact h
  | menuClose => exact h
  | menuUnlock => exact h
  | menuIdle => exact h
  | forceItem => exact orderForceItem_controlLaw h ready ⟨hk, .inr ho⟩
  | penMode => exact orderPenMode_controlLaw h ctrl _
  | penFence => exact orderPenFence_controlLaw h ctrl _ _
  | penClearExclusions => exact SameControl.law (.of_eq rfl rfl rfl rfl rfl) h
  | trackSet => exact orderTrackSet_controlLaw h ctrl _
  | trackOff => exact (sameControl_turnTrackerOff s _).law h
  | blinkRate => exact orderBlinkRate_controlLaw h ctrl
  | channelPresent => exact h
  | channelLevel => exact h
  | routeMode => exact h
  | keepTables => exact orderKeepTables_controlLaw h ctrl
  | resetPart => exact orderResetPart_controlLaw h ready
  | frameTimeout => exact orderFrameTimeout_controlLaw h ctrl
  | query => exact orderQuery_controlLaw h ready ⟨hk, .inl ho⟩

theorem takeOrder_controlLaw (ready : s.Listening) {ctrl : Word} (hk : wordKind ctrl = .ctrl) (data : List Word) :
    (s.takeOrder ctrl data).ControlLaw := by
  unfold State.takeOrder
  split
  · exact raiseFault_controlLaw h _ _
  · next o ho =>
    split
    · exact act_controlLaw h ready hk ho data
    · exact raiseFault_controlLaw h _ _

/-! ### Arrivals (R1, R2, R158) -/

/-- R158: a collection that expects one more word at least. -/
theorem collecting_controlLaw (held : s.link.held = none) {ctrl : Word} (hk : wordKind ctrl = .ctrl) {got : List Word}
    (hlt : got.length < ctrlCount ctrl) :
    State.ControlLaw { s with decoder := { s.decoder with state := .collecting ctrl got } } := by
  obtain ⟨-, -, -, hrest⟩ := h.1
  refine ⟨⟨fun c g hx => ?_, nofun, nofun, hrest⟩, h.2⟩
  cases hx
  exact ⟨held, hk, hlt⟩

theorem takeData_controlLaw (held : s.link.held = none) {ctrl : Word} (hk : wordKind ctrl = .ctrl) (got : List Word)
    (w : Word) : (s.takeData ctrl got w).ControlLaw := by
  unfold State.takeData
  dsimp only
  split
  · next hlt => exact collecting_controlLaw h held hk hlt
  · exact takeOrder_controlLaw (released_controlLaw h) ⟨rfl, held⟩ hk _

theorem takeWord_controlLaw (ready : s.Listening) (w : Word) : (s.takeWord w).ControlLaw := by
  have hold : (s.hold w).ControlLaw :=
    ⟨decoderLaw_of_idle ready.1 (fun hne => absurd (h.1.no_dots ready.2) hne) h.1.cursorLaw, h.2⟩
  unfold State.takeWord
  split
  · next hk =>
    unfold State.takeCtrl
    split
    · exact takeOrder_controlLaw h ready hk []
    · next hcount => exact collecting_controlLaw h ready.2 hk (Nat.pos_of_ne_zero hcount)
  · next hk =>
    exact ⟨decoderLaw_of_idle ready.1 (fun _ => ⟨w, rfl, hk⟩) h.1.cursorLaw, h.2⟩
  all_goals exact hold

theorem arrive_controlLaw (w : Word) : (s.arrive w).ControlLaw := by
  unfold State.arrive
  split
  · next hready =>
    have held := s.held_of_ready hready
    split
    · next ctrl got hs =>
      obtain ⟨hcollect, -⟩ := h.1
      obtain ⟨-, hk, -⟩ := hcollect ctrl got hs
      exact takeData_controlLaw h held hk got w
    · next hs => exact takeWord_controlLaw h ⟨hs, held⟩ w
    · exact h
    · exact h
  · exact h

omit h in
theorem arriveOrder_controlLaw (h : s.ControlLaw) (o : OrderName) (arg : Arg) (data : List Word) :
    (s.arriveOrder o arg data).ControlLaw :=
  foldl_keeps_law (P := State.ControlLaw) State.arrive (fun _ w ha => arrive_controlLaw ha w) (orderWords o arg data) s h

end Orders

/-! ### Commands and steps -/

/-- R6 to R10: the passages of the held word of each kind. -/
theorem passage_controlLaw {s : State} (h : s.ControlLaw) (k : WordKind) (pass : Word → State) (hk : k ≠ .frame)
    (hp : ∀ w, Passes s (pass w)) : (s.passHeld k pass).ControlLaw :=
  passHeld_controlLaw h (fun hf => absurd hf hk) hp

theorem execTip_controlLaw {s t : State} (h : s.ControlLaw) (p : Pen) :
    (execTipDown p s = .next t → t.ControlLaw) ∧ (execTipUp p s = .next t → t.ControlLaw) := by
  unfold execTipDown execTipUp
  constructor <;> intro ht
  · split at ht
    · exact ActionsKeep.of_next ((sameControl_penTipDown s p).law h) ht
    · exact ActionsKeep.of_next h ht
  · split at ht
    · exact ActionsKeep.of_next (((sameControl_penTipUp s p).trans (sameControl_trackerTipUp _ p)).law h) ht
    · exact ActionsKeep.of_next h ht

theorem execFrame_controlLaw {s t : State} (h : s.ControlLaw) (order : List PassageBlock)
    (ht : execFrame order s = .next t) : t.ControlLaw := by
  unfold execFrame at ht
  split at ht
  · next hdots =>
    exact ActionsKeep.of_next (passHeld_controlLaw h (fun _ => hdots) (passes_passFrame s order)) ht
  · exact ActionsKeep.of_next h ht

theorem execExpiry_controlLaw {s t : State} (h : s.ControlLaw) (pens : List Pen)
    (ht : execFrameTimerExpiry pens s = .next t) : t.ControlLaw := by
  unfold execFrameTimerExpiry at ht
  split at ht
  · exact ActionsKeep.of_next (expire_controlLaw h pens) ht
  · exact ActionsKeep.of_next h ht
  · exact ActionsKeep.of_next h ht

theorem execInternalReset_controlLaw {s t : State} (h : s.ControlLaw) (order : List CloseBlock)
    (ht : execInternalReset order s = .next t) : t.ControlLaw := by
  unfold execInternalReset at ht
  split at ht
  · split at ht
    · exact ActionsKeep.of_next (resetAll_controlLaw s) ht
    · exact ActionsKeep.of_next (takeRetire_controlLaw h order) ht
    · exact ActionsKeep.of_next h ht
  · exact ActionsKeep.of_next h ht

/-- Every command keeps the two laws. -/
theorem exec_controlLaw {s t : State} (h : s.ControlLaw) (c : Instr) (ht : exec c s = .next t) : t.ControlLaw := by
  have order (o : OrderName) (arg : Arg) (data : List Word) : (s.arriveOrder o arg data).ControlLaw :=
    arriveOrder_controlLaw h o arg data
  have query (subject : Nat) (ch : BitVec 2) (ps : BitVec 10) : (s.arriveQuery subject ch ps).ControlLaw := order ..
  have drawn (k : EntryKind) (w : Word) (lit : Bool) (p0 p1 : Point) : Passes s (s.passDrawn k w lit p0 p1) :=
    passes_sent s _ _ _
  have grant (c : Claimant) : (s.grantAtFreeing c).ControlLaw := grantAtFreeing_controlLaw h c
  cases c with
  | powerOn => exact ActionsKeep.of_next (controlLaw_of_reset rfl rfl rfl) ht
  | linkReset => exact ActionsKeep.of_next (resetAll_controlLaw s) ht
  | wordArrival w => exact ActionsKeep.of_next (arrive_controlLaw h w) ht
  | move =>
    exact ActionsKeep.of_next (passage_controlLaw h .move s.passMove nofun fun w => passes_sent s w _ _) ht
  | line =>
    exact ActionsKeep.of_next (passage_controlLaw h .line s.passLine nofun fun w => passes_countBoundary s _ (drawn ..) ..) ht
  | dot =>
    exact ActionsKeep.of_next (passage_controlLaw h .dot s.passDot nofun fun w => drawn ..) ht
  | step =>
    exact ActionsKeep.of_next (passage_controlLaw h .step s.passStep nofun fun w => passes_countBoundary s _ (drawn ..) ..) ht
  | glyph =>
    exact ActionsKeep.of_next (passage_controlLaw h .glyph s.passGlyph nofun fun w => drawn ..) ht
  | seg =>
    exact ActionsKeep.of_next (passage_controlLaw h .seg s.passSeg nofun fun w => passes_sent s w _ _) ht
  | frame blocks => exact execFrame_controlLaw h blocks ht
  | pass =>
    exact ActionsKeep.of_next (passage_controlLaw h .pass s.passPass nofun fun _ => ⟨rfl, rfl, id⟩) ht
  | reservedOrder =>
    exact ActionsKeep.of_next (passage_controlLaw h .reserved s.passReserved nofun (passes_passReserved s)) ht
  | crossDot => exact ActionsKeep.of_next (passCrossDot_controlLaw h) ht
  | retire blocks => exact ActionsKeep.of_next (takeRetire_controlLaw h blocks) ht
  | strike p => exact ActionsKeep.of_next ((sameControl_takeStrike s p).law h) ht
  | tipDown p => exact (execTip_controlLaw h p).1 ht
  | tipUp p => exact (execTip_controlLaw h p).2 ht
  | noticeAccept => exact ActionsKeep.of_next (acceptWord_controlLaw h) ht
  | penGrant p => exact ActionsKeep.of_next (grant _) ht
  | decoderGrant => exact ActionsKeep.of_next (grant _) ht
  | trackClaimGrant p => exact ActionsKeep.of_next (grant _) ht
  | positionClaimGrant p => exact ActionsKeep.of_next (grant _) ht
  | idleReturnGrant => exact ActionsKeep.of_next (grant _) ht
  | frameTimerExpiry pens => exact execExpiry_controlLaw h pens ht
  | internalReset blocks => exact execInternalReset_controlLaw h blocks ht
  | segCursor arg => exact ActionsKeep.of_next (order .segCursor arg []) ht
  | segLoad arg images => exact ActionsKeep.of_next (order .segLoad arg (imageWords images)) ht
  | segLoadNow arg images => exact ActionsKeep.of_next (order .segLoadNow arg (imageWords images)) ht
  | segShow arg run => exact ActionsKeep.of_next (order .segShow arg [run]) ht
  | regionLoad arg record => exact ActionsKeep.of_next (order .regionLoad arg [record]) ht
  | pageLoad arg items => exact ActionsKeep.of_next (order .pageLoad arg items) ht
  | menuRoot arg => exact ActionsKeep.of_next (order .menuRoot arg []) ht
  | menuClose arg => exact ActionsKeep.of_next (order .menuClose arg []) ht
  | menuUnlock arg => exact ActionsKeep.of_next (order .menuUnlock arg []) ht
  | menuIdle arg => exact ActionsKeep.of_next (order .menuIdle arg []) ht
  | forceItem arg => exact ActionsKeep.of_next (order .forceItem arg []) ht
  | penMode arg record => exact ActionsKeep.of_next (order .penMode arg [record]) ht
  | penFence arg w1 w2 => exact ActionsKeep.of_next (order .penFence arg [w1, w2]) ht
  | penClearExclusions arg => exact ActionsKeep.of_next (order .penClearExclusions arg []) ht
  | trackSet arg point => exact ActionsKeep.of_next (order .trackSet arg [point]) ht
  | trackOff arg => exact ActionsKeep.of_next (order .trackOff arg []) ht
  | blinkRate arg => exact ActionsKeep.of_next (order .blinkRate arg []) ht
  | channelPresent arg => exact ActionsKeep.of_next (order .channelPresent arg []) ht
  | channelLevel arg => exact ActionsKeep.of_next (order .channelLevel arg []) ht
  | routeMode arg => exact ActionsKeep.of_next (order .routeMode arg []) ht
  | keepTables arg => exact ActionsKeep.of_next (order .keepTables arg []) ht
  | resetPart arg => exact ActionsKeep.of_next (order .resetPart arg []) ht
  | frameTimeout arg => exact ActionsKeep.of_next (order .frameTimeout arg []) ht
  | querySegment ch ps => exact ActionsKeep.of_next (query 0 ch ps) ht
  | queryRegion ch ps => exact ActionsKeep.of_next (query 1 ch ps) ht
  | queryPage ch ps => exact ActionsKeep.of_next (query 2 ch ps) ht
  | queryItem ch ps => exact ActionsKeep.of_next (query 3 ch ps) ht
  | queryStack ch ps => exact ActionsKeep.of_next (query 4 ch ps) ht
  | queryPen ch ps => exact ActionsKeep.of_next (query 5 ch ps) ht
  | queryTrack ch ps => exact ActionsKeep.of_next (query 6 ch ps) ht
  | queryChannels ch ps => exact ActionsKeep.of_next (query 7 ch ps) ht
  | queryFaults ch ps => exact ActionsKeep.of_next (query 8 ch ps) ht
  | queryPart ch ps => exact ActionsKeep.of_next (query 9 ch ps) ht

/-- Settles O60: every command, and a millisecond that passes, keeps the Decoder's and the Supervisor's laws. -/
theorem stepKeepsTheDecoder : Obligations.StepKeepsTheDecoder := by
  intro s t hd hv ht
  unfold step at ht
  split at ht
  · exact ActionsKeep.of_next (tick_controlLaw ⟨hd, hv⟩) ht
  · next c rest _ => exact exec_controlLaw (s := { s with pending := rest }) ⟨hd, hv⟩ c ht

end Sys2Proof.Machine
end

section
/-! The block and its queue, and the resets (O1 to O6, O54). -/

namespace Sys2Proof.Machine

open Sys2Proof.Stated

/-! ### The block and its queue -/

/-- Settles O1: it is the definition of a step, for a queue with a front. -/
theorem stepRunsTheFrontCommand : Obligations.StepRunsTheFrontCommand := by
  intro c rest s hs
  unfold step
  rw [hs]

theorem exec_ends (c : Instr) (s : State) : ∃ t, exec c s = .next t := by
  cases c with
  | frame order =>
    show ∃ t, execFrame order s = .next t
    unfold execFrame
    split <;> exact ⟨_, rfl⟩
  | tipDown p =>
    show ∃ t, execTipDown p s = .next t
    unfold execTipDown
    split <;> exact ⟨_, rfl⟩
  | tipUp p =>
    show ∃ t, execTipUp p s = .next t
    unfold execTipUp
    split <;> exact ⟨_, rfl⟩
  | frameTimerExpiry order =>
    show ∃ t, execFrameTimerExpiry order s = .next t
    unfold execFrameTimerExpiry
    split <;> exact ⟨_, rfl⟩
  | internalReset order =>
    show ∃ t, execInternalReset order s = .next t
    unfold execInternalReset
    split
    · split <;> exact ⟨_, rfl⟩
    · exact ⟨_, rfl⟩
  | _ => exact ⟨_, rfl⟩

/-- Settles O3: no arm of the dispatch refuses or faults, and a step on an empty queue is a tick. -/
theorem nothingStops : Obligations.NothingStops := by
  refine ⟨exec_ends, fun s => ?_⟩
  unfold StepIsSafe step
  split
  · exact ⟨_, rfl⟩
  · exact exec_ends _ _

theorem exec_frameTimerExpiry_running {s : State} {ms : Nat} (h : s.supervisor.timer = .running ms)
    (order : List Pen) : exec (.frameTimerExpiry order) s = .next (s.expire order) := by
  show execFrameTimerExpiry order s = _
  unfold execFrameTimerExpiry
  rw [h]

theorem exec_frameTimerExpiry_resting {s : State} (h : s.supervisor.timer = .off ∨ s.supervisor.timer = .stalled)
    (order : List Pen) : exec (.frameTimerExpiry order) s = .next s := by
  show execFrameTimerExpiry order s = _
  unfold execFrameTimerExpiry
  rcases h with h | h <;> rw [h]

/-- Settles O2: the tick, case by case of the frame timer. -/
theorem emptyQueueLetsTimePass : Obligations.EmptyQueueLetsTimePass := by
  intro s hs
  have ticks : step s = .next s.tick := by
    unfold step
    rw [hs]
  rw [ticks]
  unfold State.tick
  refine ⟨?_, fun ms hms hlate => ?_, fun ms hms hdue => ?_⟩
  · rintro (h | h) <;> rw [h]
  · rw [hms]
    simp only
    rw [if_neg (by omega)]
  · refine ⟨Config.expiryOrder s.draws, _, exec_frameTimerExpiry_running hms _, ?_⟩
    rw [hms]
    simp only
    rw [if_pos hdue]

/-! ### Resets (R19, R20, R167) -/

/-- Settles O4: the model's reset state and the stated one are the same record. -/
theorem powerOnGivesThePowerOnValues : Obligations.PowerOnGivesThePowerOnValues := ⟨rfl, fun _ => rfl⟩

/-- R36: what the kept Segment Table reads as. -/
theorem State.resetAll_segEntry {s : State} (hwf : Table.wf SegEntry.blank s.segments = true)
    (hkeep : s.decoder.keep = true) (n : Nat) :
    s.resetAll.segEntry n = { current := s.image n, staged := none } := by
  have segments : s.resetAll.segments = Table.mapAll SegEntry.blank SegEntry.kept s.segments := by
    show keptSegments s.decoder.keep s.segments = _
    rw [hkeep]
    rfl
  unfold State.image State.segEntry
  rw [segments]
  split
  · rfl
  · rw [Table.read_mapAll _ _ rfl hwf]
    rfl

theorem State.resetAll_pen (s : State) (p : Pen) : s.resetAll.pen p = (s.pen p).linkReset := by cases p <;> rfl

theorem AttemptState.inProgress_iff (a : AttemptState) : a.inProgress = true ↔
    a = .gathering ∨ a = .regionWait ∨ a = .regionCount ∨ ∃ o, a = .holding o := by
  cases a <;> simp [AttemptState.inProgress]

/-- Settles O5: the link reset is `State.resetAll`; each kept part is read once. -/
theorem linkResetGivesTheResetValues : Obligations.LinkResetGivesTheResetValues := by
  intro s hwf
  refine ⟨s.resetAll, rfl, rfl, fun p => ?_, fun p => ?_, fun hkeep => ?_, fun hkeep => ?_⟩
  · rw [State.resetAll_pen]
    unfold PenEngine.linkReset
    split
    · exact .inl rfl
    · exact .inr rfl
  · rw [State.resetAll_pen, ← AttemptState.inProgress_iff]
    unfold PenEngine.linkReset
    split
    · next h => exact iff_of_true rfl h
    · next h => exact iff_of_false (by simp) h
  · refine ⟨State.resetAll_segEntry hwf hkeep, ?_, ?_⟩
    · show keptTable s.decoder.keep s.regions.records = _
      rw [hkeep]; rfl
    · show keptTable s.decoder.keep s.menu.pages = _
      rw [hkeep]; rfl
  · refine ⟨?_, ?_, ?_⟩
    · show keptSegments s.decoder.keep s.segments = []
      rw [hkeep]; rfl
    · show keptTable s.decoder.keep s.regions.records = []
      rw [hkeep]; rfl
    · show keptTable s.decoder.keep s.menu.pages = []
      rw [hkeep]; rfl

theorem OrderName.code_lt (o : OrderName) : o.code < 256 := by cases o <;> decide

/-- R158 to R160: the command of an order whose data count is right makes it act. -/
theorem exec_order {s : State} (h : Listens s) {c : Instr} {o : OrderName} {arg : Arg} {data : List Word}
    (hc : exec c s = .next (s.arriveOrder o arg data)) (hn : data.length ≤ 15)
    (hr : o.countRight arg data.length = true) :
    exec c s = .next (s.act o (ctrl o.code data.length arg) data) := by
  rw [hc, h.arriveOrder_acts o arg data hn hr, ctrl_eq_ctrlWord _ _ _ o.code_lt (by omega)]

/-- R159: the argument is read back from the CTRL word. -/
@[simp] theorem ctrlArg_ctrl {code n : Nat} (hc : code < 256) (hn : n < 16) (arg : Arg) :
    ctrlArg (ctrl code n arg) = arg := by
  rw [ctrl_eq_ctrlWord _ _ _ hc hn, ctrlArg_ctrlWord]

theorem exec_resetPart {s : State} (h : Listens s) (arg : Arg) : exec (.resetPart arg) s = .next s.orderResetPart :=
  exec_order h (o := .resetPart) (data := []) rfl (Nat.zero_le _) rfl

/-- R167: the retire that empties the Flight List in DRAIN. -/
theorem State.takeRetire_drained {s : State} {e : Entry} (hd : s.decoder.state = .drain) (hf : s.beam.flight = [e])
    (order : List CloseBlock) :
    s.takeRetire order = (State.retired { s with beam := { s.beam with flight := [] } } order e).resetAll := by
  obtain ⟨hdec, hflight⟩ := State.retired_reads { s with beam := { s.beam with flight := [] } } order e
  unfold State.takeRetire
  rw [hf]
  simp only [State.endDrain]
  rw [hdec, hflight, if_pos ⟨hd, rfl⟩]
  rfl

/-- A reset does not look at what the removal of an entry other than a FRAME has done. -/
theorem State.retired_resetAll (s : State) (order : List CloseBlock) (e : Entry) :
    (State.retired { s with beam := { s.beam with flight := [] } } order e).resetAll =
      (if e.kind = .frame then
        State.frameClose { s with beam := { s.beam with flight := [], afterglow := none } } order else s).resetAll := by
  unfold State.retired
  cases e.kind with
  | frame => rfl
  | _ => rfl

/-- Settles O6: the internal reset is the link reset, at once or as the drain ends. -/
theorem resetPartDrainsThenResets : Obligations.ResetPartDrainsThenResets := by
  intro s arg order
  refine ⟨fun h hf => ⟨_, rfl, ?_⟩, fun h hf => ?_, fun hd hf => ⟨_, rfl, ?_⟩, fun e u hd hf hu => ⟨_, rfl, ?_⟩⟩
  · rw [exec_resetPart h]
    unfold State.orderResetPart
    rw [if_pos hf]
    rfl
  · rw [exec_resetPart h]
    unfold State.orderResetPart
    rw [if_neg hf]
  · show execInternalReset order s = _
    unfold execInternalReset
    rw [if_pos hd, hf]
    rfl
  · have retire : s.takeRetire order = u.linkReset := by
      rw [State.takeRetire_drained hd hf, State.retired_resetAll, hu]
      rfl
    have internal : execInternalReset order s = .next (s.takeRetire order) := by
      unfold execInternalReset
      rw [if_pos hd, hf]
    exact ⟨congrArg _ retire, internal.trans (congrArg _ retire)⟩

/-- Settles O54: the reset lemma of each law. -/
theorem lawsHoldAtReset : Obligations.LawsHoldAtReset := by
  obtain ⟨hwind, hmenu, htable⟩ := State.reset.tablesLaw_iff.1 reset_tablesLaw
  obtain ⟨hqueue, hlru⟩ := NoticeUnit.reset_queueLaw (s := State.reset) rfl
  obtain ⟨hdec, hsup⟩ := controlLaw_of_reset (s := State.reset) rfl rfl rfl
  exact ⟨reset_trackerLaw, reset_listLaw, reset_penLaw, hwind, hmenu, htable, hqueue, hlru, hdec, hsup⟩

end Sys2Proof.Machine
end

section
/-! What each control order does at its last word (O40 to O44). -/

namespace Sys2Proof.Machine

open Sys2Proof.Stated

/-! ### Register orders (R47, R155, R161, R166) -/

theorem exec_segCursor {s : State} (h : Listens s) (arg : Arg) :
    exec (.segCursor arg) s = .next (s.orderSegCursor (ctrl 0x01 0 arg)) :=
  exec_order h (o := .segCursor) (data := []) rfl (Nat.zero_le _) rfl

theorem exec_blinkRate {s : State} (h : Listens s) (arg : Arg) :
    exec (.blinkRate arg) s = .next (s.orderBlinkRate (ctrl 0x50 0 arg)) :=
  exec_order h (o := .blinkRate) (data := []) rfl (Nat.zero_le _) rfl

theorem exec_keepTables {s : State} (h : Listens s) (arg : Arg) :
    exec (.keepTables arg) s = .next (s.orderKeepTables (ctrl 0x70 0 arg)) :=
  exec_order h (o := .keepTables) (data := []) rfl (Nat.zero_le _) rfl

theorem exec_channelPresent {s : State} (h : Listens s) (arg : Arg) :
    exec (.channelPresent arg) s = .next (s.orderChannelPresent (ctrl 0x60 0 arg)) :=
  exec_order h (o := .channelPresent) (data := []) rfl (Nat.zero_le _) rfl

theorem exec_channelLevel {s : State} (h : Listens s) (arg : Arg) :
    exec (.channelLevel arg) s = .next (s.orderChannelLevel (ctrl 0x61 0 arg)) :=
  exec_order h (o := .channelLevel) (data := []) rfl (Nat.zero_le _) rfl

theorem exec_routeMode {s : State} (h : Listens s) (arg : Arg) :
    exec (.routeMode arg) s = .next (s.orderRouteMode (ctrl 0x62 0 arg)) :=
  exec_order h (o := .routeMode) (data := []) rfl (Nat.zero_le _) rfl

/-- A write changes what its own number reads as. -/
theorem Table.read_write {α : Type} [DecidableEq α] (d v : α) (k n : Nat) (t : Table α) :
    Table.read d (Table.write d t k v) n = if n = k then v else Table.read d t n := by
  split
  · next h => rw [h, Table.read_write_same]
  · next h => rw [Table.read_write_other _ _ h]

/-- R166: the argument of KEEP TABLES is 0, 1 or refused. -/
theorem State.orderKeepTables_eq (s : State) (ctrl : Word) :
    s.orderKeepTables ctrl =
      if ctrlArg ctrl = 0#16 then { s with decoder := { s.decoder with keep := false } }
      else if ctrlArg ctrl = 1#16 then { s with decoder := { s.decoder with keep := true } }
      else s.raiseFault .badValue ctrl := by
  have zero : ctrlArg ctrl = 0#16 ↔ (ctrlArg ctrl).toNat = 0 := by rw [← BitVec.toNat_inj]; rfl
  have one : ctrlArg ctrl = 1#16 ↔ (ctrlArg ctrl).toNat = 1 := by rw [← BitVec.toNat_inj]; rfl
  unfold State.orderKeepTables
  by_cases h0 : (ctrlArg ctrl).toNat = 0
  · rw [if_pos (by omega), if_pos (zero.2 h0), h0]
    rfl
  · rw [if_neg (mt zero.1 h0)]
    by_cases h1 : (ctrlArg ctrl).toNat = 1
    · rw [if_pos (by omega), if_pos (one.2 h1), h1]
      rfl
    · rw [if_neg (mt one.1 h1), if_neg (by omega)]
      rfl

/-- Settles O40: each order acts at its CTRL word. -/
theorem registerOrdersWriteTheirRegister : Obligations.RegisterOrdersWriteTheirRegister := by
  refine ⟨fun s arg h => ?_, fun s arg h => ?_, fun s arg h => ?_, fun s arg h => ⟨?_, ⟨_, exec_channelLevel h arg, ?_⟩, ?_⟩⟩
  · rw [exec_segCursor h]
    simp only [State.orderSegCursor, ctrlArg_ctrl, Nat.reduceLT]
    rfl
  · rw [exec_blinkRate h]
    simp only [State.orderBlinkRate, ctrlArg_ctrl, Nat.reduceLT]
    rfl
  · rw [exec_keepTables h, State.orderKeepTables_eq]
    simp only [ctrlArg_ctrl, Nat.reduceLT]
  · rw [exec_channelPresent h]
    simp only [State.orderChannelPresent, ctrlArg_ctrl, Nat.reduceLT]
  · simp only [State.orderChannelLevel, ctrlArg_ctrl, Nat.reduceLT]
    exact ⟨trivial, fun c => Table.read_write ..⟩
  · rw [exec_routeMode h]
    simp only [State.orderRouteMode, ctrlArg_ctrl, Nat.reduceLT]

/-! ### Menu orders (R130, R140) -/

theorem exec_menuRoot {s : State} (h : Listens s) (arg : Arg) :
    exec (.menuRoot arg) s = .next (s.orderMenuRoot (ctrl 0x21 0 arg)) :=
  exec_order h (o := .menuRoot) (data := []) rfl (Nat.zero_le _) rfl

theorem exec_menuClose {s : State} (h : Listens s) (arg : Arg) : exec (.menuClose arg) s = .next s.orderMenuClose :=
  exec_order h (o := .menuClose) (data := []) rfl (Nat.zero_le _) rfl

theorem exec_menuUnlock {s : State} (h : Listens s) (arg : Arg) :
    exec (.menuUnlock arg) s = .next s.orderMenuUnlock :=
  exec_order h (o := .menuUnlock) (data := []) rfl (Nat.zero_le _) rfl

theorem exec_menuIdle {s : State} (h : Listens s) (arg : Arg) :
    exec (.menuIdle arg) s = .next (s.orderMenuIdle (ctrl 0x24 0 arg)) :=
  exec_order h (o := .menuIdle) (data := []) rfl (Nat.zero_le _) rfl

/-- Settles O44: each order acts at its CTRL word. -/
theorem menuOrdersWriteTheMenu : Obligations.MenuOrdersWriteTheMenu := by
  intro s arg h
  rw [exec_menuRoot h, exec_menuClose h, exec_menuUnlock h, exec_menuIdle h]
  simp only [State.orderMenuRoot, State.orderMenuIdle, ctrlArg_ctrl, Nat.reduceLT]
  exact ⟨rfl, rfl, rfl, trivial⟩

/-! ### SEG SHOW (R28) -/

theorem exec_segShow {s : State} (h : Listens s) (arg : Arg) (run : Word) :
    exec (.segShow arg run) s = .next (s.orderSegShow (ctrl 0x04 1 arg) run) :=
  exec_order h (o := .segShow) (data := [run]) rfl (Nat.le_refl 1 |>.trans (by decide)) rfl

/-- 2.1: a write of an entry other than segment 0, which has none. -/
theorem State.segEntry_setSegEntry {s : State} {k : Nat} (hk : k ≠ 0) (e : SegEntry) (n : Nat) :
    (s.setSegEntry k e).segEntry n = if n = k then e else s.segEntry n := by
  unfold State.segEntry State.setSegEntry
  by_cases hn : n = k
  · subst hn
    simp [hk]
  · simp [hn, Table.read_write_other]

/-- R28: a run written to segments that are not 0, no one twice. -/
theorem State.segEntry_showRun (d : Display) (run : List Nat) (hd : run.Nodup) (h0 : 0 ∉ run) (s : State) (n : Nat) :
    (run.foldl (State.showSegment d) s).segEntry n =
      if n ∈ run then (s.segEntry n).withDisplay d else s.segEntry n := by
  induction run generalizing s with
  | nil => rfl
  | cons k run ih =>
    obtain ⟨hk, hrun⟩ := List.nodup_cons.1 hd
    rw [List.mem_cons, not_or] at h0
    rw [List.foldl_cons, ih hrun h0.2, State.showSegment, State.segEntry_setSegEntry (Ne.symm h0.1)]
    by_cases hn : n = k
    · subst hn
      simp [hk]
    · simp [hn]

theorem State.showRun_frame (d : Display) (run : List Nat) (s : State) :
    run.foldl (State.showSegment d) s = { s with segments := (run.foldl (State.showSegment d) s).segments } := by
  induction run generalizing s with
  | nil => rfl
  | cons k run ih =>
    rw [List.foldl_cons]
    exact ih _

theorem mem_runOf {first last n : Nat} (h : first ≤ last) : n ∈ runOf first last ↔ first ≤ n ∧ n ≤ last := by
  unfold runOf
  rw [List.mem_range'_1]
  omega

theorem nodup_runOf (first last : Nat) : (runOf first last).Nodup := List.nodup_range'

theorem displayOfCode_field (arg : Arg) :
    displayOfCode (field arg 0 2) = (if field arg 0 2 = 0 then .normal else if field arg 0 2 = 1 then .highlight
      else if field arg 0 2 = 2 then .blink else .blank) := by
  have : field arg 0 2 < 4 := field_lt arg 0 2
  unfold displayOfCode
  generalize field arg 0 2 = k at *
  interval_cases k <;> rfl

/-- Settles O42: the run is a list of entries without segment 0, each written once. -/
theorem segShowWritesTheRun : Obligations.SegShowWritesTheRun := by
  intro s arg run h
  dsimp only
  rw [exec_segShow h, ← displayOfCode_field]
  simp only [State.orderSegShow, Config.lastSegment, ctrlArg_ctrl, Nat.reduceLT]
  constructor
  · intro hfirst hlast hle
    rw [if_pos ⟨hfirst, hlast, hle⟩]
    refine ⟨_, rfl, State.showRun_frame .., fun n => ?_⟩
    rw [State.segEntry_showRun _ _ (nodup_runOf _ _) (by rw [mem_runOf hle]; omega)]
    simp only [mem_runOf hle]
    rfl
  · intro hout
    rw [if_neg hout]
    rfl

end Sys2Proof.Machine
end

section
/-! The loads (O41, O43). -/

namespace Sys2Proof.Machine

open Sys2Proof.Stated

/-! ### Records (R114, R128) -/

theorem exec_regionLoad {s : State} (h : Listens s) (arg : Arg) (w : Word) :
    exec (.regionLoad arg w) s = .next (s.orderRegionLoad (ctrl 0x10 1 arg) w) :=
  exec_order h (o := .regionLoad) (data := [w]) rfl (Nat.le_of_ble_eq_true rfl) rfl

/-- R159: the data count that PAGE LOAD expects. -/
theorem countRight_pageLoad (arg : Arg) (n : Nat) :
    OrderName.countRight .pageLoad arg n = true ↔ n = if arg.getLsbD 10 = true then field arg 0 4 else 0 := by
  exact decide_eq_true_iff

theorem exec_pageLoad {s : State} (h : Listens s) (arg : Arg) {words : List Word} (hn : words.length ≤ 15)
    (hc : words.length = if arg.getLsbD 10 = true then field arg 0 4 else 0) :
    exec (.pageLoad arg words) s = .next (s.orderPageLoad (ctrl 0x20 words.length arg) words) :=
  exec_order h (o := .pageLoad) rfl hn ((countRight_pageLoad arg _).2 hc)

theorem exec_pageLoad_badCount {s : State} (h : Listens s) (arg : Arg) {words : List Word} (hn : words.length ≤ 15)
    (hc : words.length ≠ if arg.getLsbD 10 = true then field arg 0 4 else 0) :
    exec (.pageLoad arg words) s = .next (s.raiseFault .badControl (ctrl 0x20 words.length arg)) := by
  have wrong : OrderName.countRight .pageLoad arg words.length = false := by
    rw [Bool.eq_false_iff]
    exact mt (countRight_pageLoad arg _).1 hc
  rw [ctrl_eq_ctrlWord _ _ _ (by decide) (by omega)]
  exact congrArg _ (State.arriveOrder_badControl s h.upstreamReady h.2 .pageLoad arg words hn wrong)

/-- R128: PAGE LOAD of a page with items. -/
theorem State.orderPageLoad_valid (s : State) {ctrl : Word} (hv : (ctrlArg ctrl).getLsbD 10 = true) (words : List Word) :
    s.orderPageLoad ctrl words =
      if field (ctrlArg ctrl) 0 4 = 0 ∨ 12 < field (ctrlArg ctrl) 0 4 then s.badValue ctrl
      else match decodeItems words with
        | some items => s.setPage (field (ctrlArg ctrl) 11 5) { valid := true, items := items }
        | none => s.badValue ctrl := by
  unfold State.orderPageLoad pageLoadValid
  simp only [hv, if_true]
  rfl

theorem State.page_setPage (s : State) (k : Nat) (r : PageRecord) (n : Nat) :
    (s.setPage k r).menu.page n = if n = k then r else s.menu.page n := Table.read_write ..

/-- Settles O43: each record is a write of one table. -/
theorem recordLoadsReplaceTheRecord : Obligations.RecordLoadsReplaceTheRecord := by
  refine ⟨fun s arg w h => ?_, fun s arg words h hn => ?_⟩
  · rw [exec_regionLoad h]
    simp only [State.orderRegionLoad, ctrlArg_ctrl, Nat.reduceLT]
    constructor
    · intro hr
      rw [if_neg hr]
      exact ⟨_, rfl, rfl, fun r => Table.read_write ..⟩
    · intro hr
      rw [if_pos hr]
      rfl
  · dsimp only
    have arg_eq : ctrlArg (ctrl 0x20 words.length arg) = arg := ctrlArg_ctrl (by decide) (by omega) arg
    refine ⟨exec_pageLoad_badCount h arg hn, fun record hc hrecord => ?_, fun hc hv hbad => ?_⟩
    · rw [exec_pageLoad h arg hn hc]
      obtain ⟨hv, hlo, hhi, hvalid, hitems⟩ | ⟨hv, rfl⟩ := hrecord
      · rw [if_pos hv] at hlo hhi
        rw [State.orderPageLoad_valid s (by rw [arg_eq]; exact hv), arg_eq, if_neg (by omega),
          (decodeItems_eq_some_iff words record.items).2 hitems]
        refine ⟨_, rfl, rfl, fun n => ?_⟩
        rw [State.page_setPage, ← hvalid]
      · unfold State.orderPageLoad pageLoadValid
        simp only [arg_eq, hv, Bool.false_eq_true, if_false]
        exact ⟨_, rfl, rfl, State.page_setPage s _ _⟩
    · rw [exec_pageLoad h arg hn hc, State.orderPageLoad_valid s (by rw [arg_eq]; exact hv), arg_eq]
      rw [if_pos hv] at hbad
      split
      · rfl
      · next hcount =>
        have reserved : decodeItems words = none := by
          rw [decodeItems_eq_none_iff]
          rcases hbad with hz | hmany | hex
          · exact absurd (.inl hz) hcount
          · exact absurd (.inr hmany) hcount
          · exact hex
        rw [reserved]
        rfl

/-! ### SEG LOAD and SEG LOAD NOW (R25 to R27, R161, R162) -/

theorem countRight_load {images : List (Word × Word)} (h1 : 1 ≤ images.length) (h7 : images.length ≤ 7) (o : OrderName)
    (ho : o = .segLoad ∨ o = .segLoadNow) (arg : Arg) : o.countRight arg (imageWords images).length = true := by
  rw [imageWords_length]
  rcases ho with rfl | rfl <;> simp only [OrderName.countRight, Bool.and_eq_true, decide_eq_true_eq] <;> omega

/-- The code of a load. -/
def loadCode (now : Bool) : Nat := if now then 0x03 else 0x02

theorem exec_load {s : State} (h : Listens s) (arg : Arg) {images : List (Word × Word)} (h1 : 1 ≤ images.length)
    (h7 : images.length ≤ 7) (now : Bool) :
    exec (if now = true then .segLoadNow arg images else .segLoad arg images) s =
      .next (s.orderSegLoad now (ctrl (loadCode now) (2 * images.length) arg) (imageWords images)) := by
  have hn : (imageWords images).length ≤ 15 := by rw [imageWords_length]; omega
  rw [← imageWords_length]
  cases now with
  | false => exact exec_order h (o := .segLoad) rfl hn (countRight_load h1 h7 _ (.inl rfl) arg)
  | true => exact exec_order h (o := .segLoadNow) rfl hn (countRight_load h1 h7 _ (.inr rfl) arg)

/-- R161: how many images the cursor leaves place for. -/
def ControlDecoder.places (d : ControlDecoder) : Nat := if d.endFlag = true then 0 else 1024 - d.cursor

/-- R161: each written image takes one place, and the cursor goes on while a place is left. -/
theorem ControlDecoder.advanced_places {d : ControlDecoder} (hc : d.cursor ≤ 1023) (hp : 0 < d.places) :
    d.endFlag = false ∧ d.advanced.places + 1 = d.places ∧
      d.advanced.cursor = (if 0 < d.advanced.places then d.cursor + 1 else d.cursor) ∧ d.advanced.cursor ≤ 1023 := by
  unfold ControlDecoder.places at hp
  split at hp
  · cases hp
  · next he =>
    rw [Bool.not_eq_true] at he
    unfold ControlDecoder.advanced ControlDecoder.places
    simp only [Config.lastSegment, he]
    split
    · next hlt =>
      have more : 0 < 1024 - (d.cursor + 1) := by omega
      simp only [Bool.false_eq_true, if_false, if_pos more]
      exact ⟨trivial, by omega, trivial, by omega⟩
    · next hge =>
      simp only [Bool.false_eq_true, if_true, if_false, Nat.lt_irrefl]
      exact ⟨trivial, by omega, trivial, hc⟩

/-- R161: images written at the cursor, one after another. -/
def State.writeImages (s : State) (now : Bool) (imgs : List Image) : State :=
  imgs.foldl (fun t img => t.writeImage now img) s

/-- R161, R162: a load writes the images that find a place, and raises BAD INDEX once for the others. -/
theorem loadImages_eq (now : Bool) (ctrl : Word) (imgs : List Image) (s : State) (hc : s.decoder.cursor ≤ 1023) :
    State.loadImages now ctrl imgs s =
      if s.decoder.places < imgs.length then
        (s.writeImages now (imgs.take s.decoder.places)).raiseFault .badIndex ctrl
      else s.writeImages now (imgs.take s.decoder.places) := by
  induction imgs generalizing s with
  | nil => simp [State.loadImages, State.writeImages]
  | cons img imgs ih =>
    unfold State.loadImages
    split
    · next he =>
      have full : s.decoder.places = 0 := if_pos he
      simp [full, State.writeImages]
    · next he =>
      have free : 0 < s.decoder.places := by
        unfold ControlDecoder.places
        rw [if_neg he]
        omega
      obtain ⟨-, hplaces, -, hcursor⟩ := ControlDecoder.advanced_places hc free
      rw [ih (s.writeImage now img) hcursor, ← hplaces]
      simp only [List.length_cons, Nat.add_lt_add_iff_right, List.take_succ_cons]
      rfl

theorem State.writeImages_frame (s : State) (now : Bool) (imgs : List Image) :
    s.writeImages now imgs = { s with segments := (s.writeImages now imgs).segments
                                      decoder := (s.writeImages now imgs).decoder } := by
  unfold State.writeImages
  induction imgs generalizing s with
  | nil => rfl
  | cons img imgs ih => exact ih (s.writeImage now img)

/-- R161: the cursor and the end flag after a load that finds places. -/
theorem State.writeImages_decoder (s : State) (now : Bool) (imgs : List Image) (hc : s.decoder.cursor ≤ 1023)
    (hn : imgs.length ≤ s.decoder.places) :
    (s.writeImages now imgs).decoder = { s.decoder with
      cursor := min 1023 (s.decoder.cursor + imgs.length)
      endFlag := s.decoder.endFlag || decide (imgs.length = s.decoder.places) } := by
  induction imgs generalizing s with
  | nil =>
    have flag : (s.decoder.endFlag || decide (0 = s.decoder.places)) = s.decoder.endFlag := by
      unfold ControlDecoder.places
      cases s.decoder.endFlag with
      | true => rfl
      | false => simp; omega
    simp only [List.length_nil, flag, Nat.add_zero, Nat.min_eq_right hc]
    rfl
  | cons img imgs ih =>
    have free : 0 < s.decoder.places := by simp only [List.length_cons] at hn; omega
    obtain ⟨hend, hplaces, -, hcursor⟩ := ControlDecoder.advanced_places hc free
    have fits : imgs.length ≤ s.decoder.advanced.places := by simp only [List.length_cons] at hn; omega
    refine (ih (s.writeImage now img) hcursor fits).trans ?_
    show ({ s.decoder.advanced with
      cursor := min 1023 (s.decoder.advanced.cursor + imgs.length)
      endFlag := s.decoder.advanced.endFlag || decide (imgs.length = s.decoder.advanced.places) } : ControlDecoder) = _
    have count : (imgs.length = s.decoder.advanced.places) = (imgs.length + 1 = s.decoder.places) := by
      rw [← hplaces, Nat.add_right_cancel_iff]
    simp only [count, List.length_cons] at hn ⊢
    unfold ControlDecoder.places at hn ⊢
    unfold ControlDecoder.advanced
    simp only [hend, Bool.false_eq_true, if_false, Bool.false_or, Config.lastSegment] at hn ⊢
    split
    · simp only [Bool.false_or, Nat.add_assoc, Nat.add_comm 1]
    · have last : imgs.length + 1 = 1024 - s.decoder.cursor := by omega
      simp only [last, decide_true, Bool.true_or]
      congr 1
      omega

/-- R161: the entries after a load that finds places, from the cursor upward. -/
theorem State.writeImages_segEntry (s : State) (now : Bool) (imgs : List Image) (h1 : 1 ≤ s.decoder.cursor)
    (hc : s.decoder.cursor ≤ 1023) (hn : imgs.length ≤ s.decoder.places) :
    (∀ k img, imgs[k]? = some img → (s.writeImages now imgs).segEntry (s.decoder.cursor + k) =
        (s.segEntry (s.decoder.cursor + k)).loaded now img) ∧
      ∀ n, n < s.decoder.cursor ∨ s.decoder.cursor + imgs.length ≤ n →
        (s.writeImages now imgs).segEntry n = s.segEntry n := by
  induction imgs generalizing s with
  | nil => exact ⟨nofun, fun _ _ => rfl⟩
  | cons img imgs ih =>
    simp only [List.length_cons] at hn ⊢
    obtain ⟨-, hplaces, hnext, hcursor⟩ := ControlDecoder.advanced_places hc (by omega)
    obtain ⟨hwritten, hothers⟩ := ih (s.writeImage now img) (by show 1 ≤ s.decoder.advanced.cursor; split at hnext <;> omega) hcursor
      (by show _ ≤ s.decoder.advanced.places; omega)
    have first (n : Nat) : (s.writeImage now img).segEntry n =
        if n = s.decoder.cursor then (s.segEntry n).loaded now img else s.segEntry n := by
      refine (State.segEntry_setSegEntry (by omega) _ n).trans ?_
      split
      · next heq => rw [heq]
      · rfl
    have cursor : (s.writeImage now img).decoder.cursor = s.decoder.advanced.cursor := rfl
    rw [cursor] at hwritten hothers
    refine ⟨fun k i hk => ?_, fun n hout => ?_⟩
    · cases k with
      | zero =>
        cases hk
        refine (hothers _ ?_).trans ?_
        · split at hnext <;> omega
        · rw [first, if_pos (Nat.add_zero _)]
      | succ k =>
        have bound : k < imgs.length := by
          rw [List.getElem?_cons_succ] at hk
          exact (List.getElem?_eq_some_iff.1 hk).1
        rw [if_pos (by omega)] at hnext
        have written := hwritten k i hk
        rw [hnext, first, if_neg (by omega)] at written
        rw [show s.decoder.cursor + (k + 1) = s.decoder.cursor + 1 + k by omega]
        exact written
    · refine (hothers n ?_).trans (by rw [first, if_neg (by omega)])
      split at hnext <;> omega

theorem decodeImages_of_reserved {words : List (Word × Word)}
    (h : ∃ w ∈ words, field w.1 30 2 = 3 ∨ (field w.1 30 2 = 2 ∧ 12 ≤ field w.2 0 4)) : decodeImages words = none := by
  obtain ⟨w, hw, hbad⟩ := h
  have reserved : imageOfWords w = none := by
    unfold imageOfWords
    rcases hbad with h3 | ⟨h2, h12⟩
    · simp [h3]
    · simp [h2, show ¬ field w.2 0 4 < 12 by omega]
  cases hd : decodeImages words with
  | none => rfl
  | some imgs =>
    have mapped := (decodeImages_eq_some_iff words imgs).1 hd
    have mem : none ∈ imgs.map some := by
      rw [← mapped, ← reserved]
      exact List.mem_map_of_mem hw
    simp at mem

/-- Settles O41: the images that find a place are the first of the load. -/
theorem loadsWriteTheirImagesOrAreRefused : Obligations.LoadsWriteTheirImagesOrAreRefused := by
  refine ⟨fun s arg words imgs now h hw1 hw7 himgs hc1 hc => ?_, fun s arg words h hw1 hw7 hbad => ?_⟩
  · have decoded := (decodeImages_eq_some_iff words imgs).2 himgs
    have places : (if s.decoder.endFlag = true then 0 else 1024 - s.decoder.cursor) = s.decoder.places := rfl
    have taken : (imgs.take s.decoder.places).length = min imgs.length s.decoder.places := by
      rw [List.length_take, Nat.min_comm]
    have fits : (imgs.take s.decoder.places).length ≤ s.decoder.places := List.length_take_le ..
    obtain ⟨hwritten, hothers⟩ := s.writeImages_segEntry now (imgs.take s.decoder.places) hc1 hc fits
    have decoder := s.writeImages_decoder now (imgs.take s.decoder.places) hc fits
    rw [taken] at hothers decoder
    dsimp only
    rw [places, exec_load h arg hw1 hw7]
    refine ⟨s.writeImages now (imgs.take s.decoder.places), ?_, s.writeImages_frame .., decoder, fun k img hk himg => ?_,
      hothers⟩
    · unfold State.orderSegLoad
      rw [pairUp_imageWords, Option.bind_some, decoded]
      exact congrArg _ (loadImages_eq now _ imgs s hc)
    · have k_lt : k < s.decoder.places := by omega
      refine (hwritten k img (by rw [List.getElem?_take_of_lt k_lt]; exact himg)).trans ?_
      cases now <;> rfl
  · have refused (now : Bool) : s.orderSegLoad now (ctrl (loadCode now) (2 * words.length) arg) (imageWords words) =
        s.raiseFault .badValue (ctrl (loadCode now) (2 * words.length) arg) := by
      unfold State.orderSegLoad
      rw [pairUp_imageWords, Option.bind_some, decodeImages_of_reserved hbad]
      rfl
    exact ⟨(exec_load h arg hw1 hw7 false).trans (congrArg _ (refused false)),
      (exec_load h arg hw1 hw7 true).trans (congrArg _ (refused true))⟩

end Sys2Proof.Machine
end

section
/-! The orders of the pens and trackers (O47 to O50). -/

namespace Sys2Proof.Machine

open Sys2Proof.Stated

theorem exec_penFence {s : State} (h : Listens s) (arg : Arg) (w1 w2 : Word) :
    exec (.penFence arg w1 w2) s = .next (s.orderPenFence (ctrl 0x31 2 arg) w1 w2) :=
  exec_order h (o := .penFence) (data := [w1, w2]) rfl (Nat.le_of_ble_eq_true rfl) rfl

theorem exec_penClearExclusions {s : State} (h : Listens s) (arg : Arg) :
    exec (.penClearExclusions arg) s = .next (s.orderPenClearExclusions (ctrl 0x32 0 arg)) :=
  exec_order h (o := .penClearExclusions) (data := []) rfl (Nat.zero_le _) rfl

theorem exec_trackSet {s : State} (h : Listens s) (arg : Arg) (w : Word) :
    exec (.trackSet arg w) s = .next (s.orderTrackSet (ctrl 0x40 1 arg) w) :=
  exec_order h (o := .trackSet) (data := [w]) rfl (Nat.le_of_ble_eq_true rfl) rfl

theorem exec_trackOff {s : State} (h : Listens s) (arg : Arg) :
    exec (.trackOff arg) s = .next (s.orderTrackOff (ctrl 0x41 0 arg)) :=
  exec_order h (o := .trackOff) (data := []) rfl (Nat.zero_le _) rfl

theorem exec_penMode {s : State} (h : Listens s) (arg : Arg) (w : Word) :
    exec (.penMode arg w) s = .next (s.orderPenMode (ctrl 0x30 1 arg) w) :=
  exec_order h (o := .penMode) (data := [w]) rfl (Nat.le_of_ble_eq_true rfl) rfl

/-! ### The fence and the exclusion list (R45, R87) -/

/-- R45, R179: the fence of each fence mode. -/
theorem decodeFence_cases (arg : Arg) (w1 w2 : Word) :
    (field arg 0 2 = 0 → decodeFence arg w1 w2 = some .none) ∧
      (field arg 0 2 = 1 → decodeFence arg w1 w2 =
        if field w1 0 12 < field w1 16 12 ∨ field w2 0 12 < field w2 16 12 then none
        else some (.fixed (field w1 16 12) (field w1 0 12) (field w2 16 12) (field w2 0 12))) ∧
      (field arg 0 2 = 2 → decodeFence arg w1 w2 =
        if field w1 16 10 = 0 ∨ field w1 0 10 = 0 then none
        else some (.follow (field w1 16 10) (field w1 0 10))) ∧
      (field arg 0 2 = 3 → decodeFence arg w1 w2 = none) := by
  unfold decodeFence
  refine ⟨fun h => ?_, fun h => ?_, fun h => ?_, fun h => ?_⟩ <;> rw [h]
  · rfl
  · simp only
    split
    · rw [if_neg (by omega)]
    · rw [if_pos (by omega)]
  · simp only
    split
    · rw [if_neg (by omega)]
    · rw [if_pos (by omega)]
  · rfl

/-- Settles O49: the four fence modes, and the one write of the exclusion list. -/
theorem penOrdersWriteFenceAndExclusions : Obligations.PenOrdersWriteFenceAndExclusions := by
  refine ⟨fun s arg w1 w2 h => ?_, fun s arg h => ?_⟩
  · obtain ⟨hnone, hfixed, hfollow, hreserved⟩ := decodeFence_cases arg w1 w2
    have acts : exec (.penFence arg w1 w2) s = .next (match decodeFence arg w1 w2 with
        | some fence => s.setFence (penOf arg) fence
        | none => s.raiseFault .badValue (ctrl 0x31 2 arg)) := by
      rw [exec_penFence h]
      simp only [State.orderPenFence, ctrlArg_ctrl, Nat.reduceLT, argPen_eq_penOf]
      rfl
    dsimp only
    rw [acts]
    refine ⟨fun hm => ?_, fun hm => ?_, fun hm => ?_, fun hm => ?_⟩
    · rw [hnone hm]; rfl
    · rw [hfixed hm]
      by_cases hbad : field w1 0 12 < field w1 16 12 ∨ field w2 0 12 < field w2 16 12
      · rw [if_pos hbad, if_pos hbad]
      · rw [if_neg hbad, if_neg hbad]; rfl
    · rw [hfollow hm]
      by_cases hbad : field w1 16 10 = 0 ∨ field w1 0 10 = 0
      · rw [if_pos hbad, if_pos hbad]
      · rw [if_neg hbad, if_neg hbad]; rfl
    · rw [hreserved hm]
  · rw [exec_penClearExclusions h]
    simp only [State.orderPenClearExclusions, ctrlArg_ctrl, Nat.reduceLT, argPen_eq_penOf]
    rfl

/-! ### Trackers (R102, R103) -/

/-- R101: a tracker that was LOCKED tells a region attempt that rests on it. -/
theorem State.notifyIfLocked_eq (s : State) (p : Pen) (before : TrackState) :
    s.notifyIfLocked p before =
      if before = .locked ∧ ((s.pen p).attempt = .regionWait ∨ (s.pen p).attempt = .regionCount) then
        afterMiss s p (s.pen p) .track (.settled none false)
      else s := by
  unfold State.notifyIfLocked
  rw [notifyUnlocked_eq_afterUnlock]
  unfold afterUnlock
  by_cases hb : before = .locked <;> simp [hb]

theorem State.notifyIfLocked_rests {s : State} {p : Pen} {before : TrackState} (hl : before = .locked)
    (hr : (s.pen p).attempt = .regionWait ∨ (s.pen p).attempt = .regionCount) :
    s.notifyIfLocked p before = afterMiss s p (s.pen p) .track (.settled none false) := by
  rw [State.notifyIfLocked_eq, if_pos ⟨hl, hr⟩]

theorem State.notifyIfLocked_free {s : State} {p : Pen} {before : TrackState}
    (h : before ≠ .locked ∨ ((s.pen p).attempt ≠ .regionWait ∧ (s.pen p).attempt ≠ .regionCount)) :
    s.notifyIfLocked p before = s := by
  rw [State.notifyIfLocked_eq, if_neg (by tauto)]

/-- R94, R102: the state that TRACK SET writes. -/
theorem State.setTrack_eq (s : State) (p : Pen) (point : Point) (pitch coast : Nat) :
    s.setTrack p point pitch coast =
      State.notifyIfLocked { s with trackers := s.trackers.set p { s.tracker p with
        state := .seeking, position := point, pitch := pitch, coastLimit := coast, missCount := 0, settle := true
        stale := true, origin := .host, tally := ⟨0, 0, 0, 0⟩, lastReported := point } } p (s.tracker p).state := rfl

/-- R103: the state in which the tracker is OFF and its claims and dots are gone. -/
theorem State.turnTrackerOff_eq (s : State) (p : Pen) :
    s.turnTrackerOff p =
      State.notifyIfLocked { s with
        trackers := s.trackers.set p { turnedOff (s.tracker p) with trackClaim := none, positionClaim := none }
        injection := s.injection.filter fun d => decide (d.pen ≠ p) } p (s.tracker p).state := rfl

/-- Settles O50: the write, then the notice to a region attempt that rests on the lock. -/
theorem trackOrdersWriteTheTracker : Obligations.TrackOrdersWriteTheTracker := by
  refine ⟨fun s arg w h => ?_, fun s arg h => ?_⟩
  · dsimp only
    rw [exec_trackSet h]
    simp only [State.orderTrackSet, trackPitch, trackCoast, ctrlArg_ctrl, Nat.reduceLT, argPen_eq_penOf]
    refine ⟨fun hok hfree => ?_, fun hok hlocked hregion => ?_, fun hbad => ?_⟩
    · rw [if_pos hok, State.setTrack_eq]
      exact congrArg _ (State.notifyIfLocked_free hfree)
    · rw [if_pos hok, State.setTrack_eq]
      exact congrArg _ (State.notifyIfLocked_rests hlocked hregion)
    · rw [if_neg hbad]
      rfl
  · dsimp only
    rw [exec_trackOff h]
    simp only [State.orderTrackOff, ctrlArg_ctrl, Nat.reduceLT, argPen_eq_penOf]
    constructor
    · intro hfree
      rw [State.turnTrackerOff_eq]
      exact congrArg _ (State.notifyIfLocked_free hfree)
    · intro hlocked hregion
      rw [State.turnTrackerOff_eq]
      exact congrArg _ (State.notifyIfLocked_rests hlocked hregion)

/-! ### PEN MODE (R68, R69) -/

/-- Claims look only at whether a pen holds an outcome. -/
theorem State.hasRoom_setPen (s : State) (p : Pen) {e : PenEngine}
    (he : e.attempt.isHolding = (s.pen p).attempt.isHolding) : (s.setPen p e).hasRoom = s.hasRoom := by
  have claims : (s.setPen p e).claims = s.claims := by
    cases p <;> simp_all [State.claims, State.setPen, State.pen, Pair.set, Pair.get]
  unfold State.hasRoom
  rw [claims]
  rfl

/-- R68: the attempt in progress ends, and the record is written. -/
theorem State.writeMode_endForMode (s : State) (p : Pen) (record : ModeRecord) (attempt : AttemptState) :
    (s.endForMode p).writeMode p record attempt =
      afterMode s p { s.pen p with record := record, attempt := attempt } := by
  have aborted (ha : aborts (s.pen p).attempt = true)
      (hl : (s.pen p).attempt = .gathering ∨ (s.pen p).attempt = .regionWait ∨ (s.pen p).attempt = .regionCount) :
      (s.endMiss p .aborted .ready).writeMode p record attempt =
        afterMode s p { s.pen p with record := record, attempt := attempt } := by
    rw [endMiss_eq_afterMiss]
    unfold State.writeMode afterMiss afterMode State.setPen State.setEcho State.pen
    rcases hl with hl | hl | hl <;> rw [State.pen] at hl <;> simp [hl, aborts]
  unfold State.endForMode
  cases ha : (s.pen p).attempt with
  | gathering => exact aborted (by rw [ha]; rfl) (.inl ha)
  | regionWait => exact aborted (by rw [ha]; rfl) (.inr (.inl ha))
  | regionCount => exact aborted (by rw [ha]; rfl) (.inr (.inr ha))
  | holding o =>
    unfold State.writeMode
    rw [State.pen_setPen]
    unfold afterMode State.setEcho State.setPen
    simp [ha, aborts]
  | off =>
    unfold State.writeMode afterMode State.setEcho State.setPen
    simp [ha, aborts]
  | ready =>
    unfold State.writeMode afterMode State.setEcho State.setPen
    simp [ha, aborts]
  | settled k b =>
    unfold State.writeMode afterMode State.setEcho State.setPen
    simp [ha, aborts]

/-- R53: PEN MODE with a record in its ranges. -/
theorem modeInRange_iff (r : ModeRecord) : modeInRange r = true ↔
    r.w ≠ 0 ∧ r.w ≤ 8 ∧ r.c ≠ 0 ∧ r.c ≤ r.w ∧ r.span ≠ 0 := by
  simp only [modeInRange, Bool.and_eq_true, decide_eq_true_eq]
  omega

theorem exec_penMode_accepted {s : State} (h : Listens s) (arg : Arg) (w : Word)
    (hr : modeInRange (modeRecord (s.pen (penOf arg)).record.fence arg w) = true) :
    exec (.penMode arg w) s =
      .next (s.changeMode (penOf arg) (modeRecord (s.pen (penOf arg)).record.fence arg w)) := by
  rw [exec_penMode h]
  simp only [State.orderPenMode, ctrlArg_ctrl, Nat.reduceLT, argPen_eq_penOf, decodeMode_eq_modeRecord]
  rw [if_pos hr]

theorem exec_penMode_refused {s : State} (h : Listens s) (arg : Arg) (w : Word)
    (hr : modeInRange (modeRecord (s.pen (penOf arg)).record.fence arg w) = false) :
    exec (.penMode arg w) s = .next (s.raiseFault .badValue (ctrl 0x30 1 arg)) := by
  rw [exec_penMode h]
  simp only [State.orderPenMode, ctrlArg_ctrl, Nat.reduceLT, argPen_eq_penOf, decodeMode_eq_modeRecord]
  rw [hr]
  rfl

/-- R68: a mode other than OFF enters READY, and an attempt starts while the tip is down. -/
theorem State.changeMode_used (s : State) (p : Pen) {record : ModeRecord} (hm : record.mode ≠ .off) :
    s.changeMode p record = (afterMode s p { s.pen p with record := record, attempt := .ready }).restart p := by
  unfold State.changeMode
  split
  · next h => exact absurd h hm
  all_goals rw [State.writeMode_endForMode]

/-- R71: the outcome that PEN MODE leaves in the engine. -/
def PenEngine.modeOutcome (e : PenEngine) : LastOutcome :=
  match e.attempt with
  | .gathering | .regionWait | .regionCount => .miss .aborted
  | .holding _ => .discarded
  | .off | .ready | .settled _ _ => e.lastOutcome

@[simp] theorem afterMode_pen (s : State) (p : Pen) (e : PenEngine) : (afterMode s p e).pen p =
    { e with candidates := [], exclusions := [], lastOutcome := (s.pen p).modeOutcome } :=
  Pair.get_set_same _ p _

@[simp] theorem afterMode_tracker (s : State) (p : Pen) (e : PenEngine) (q : Pen) :
    (afterMode s p e).tracker q = s.tracker q := rfl

/-- The engine that `afterMode` writes can be replaced by one with other fields. -/
theorem setPen_afterMode (s : State) (p : Pen) (e f : PenEngine) :
    (afterMode s p e).setPen p { f with candidates := [], exclusions := [], lastOutcome := (s.pen p).modeOutcome } =
      afterMode s p f := by
  simp only [afterMode, State.setPen, Pair.set_set]
  rfl

/-- R56, R68: the attempt that a pen with its tip down starts. -/
theorem started_afterMode (s : State) (p : Pen) (e : PenEngine) (attempt : AttemptState) :
    (afterMode s p e).setPen p (((afterMode s p e).pen p).started attempt) =
      afterMode s p { e with attempt := attempt, firstSeen := 0, frameCount := 0, crowded := false } := by
  rw [afterMode_pen]
  exact setPen_afterMode s p e { e with attempt := attempt, firstSeen := 0, frameCount := 0, crowded := false }

/-- R122: the test phase of pen p once PEN MODE has ended its attempt. -/
theorem setPhase_afterMode (s : State) (p : Pen) (e : PenEngine) (ph : TestPhase) :
    (afterMode s p e).setRegionTest p { (afterMode s p e).regionTest p with phase := ph } =
      { afterMode s p e with regions :=
        { s.regions with tests := s.regions.tests.set p { s.regionTest p with phase := ph } } } := by
  by_cases ha : aborts (s.pen p).attempt = true <;> simp [afterMode, State.setRegionTest, State.regionTest, ha]

theorem State.startAttempt_press {s : State} {p : Pen} (hm : (s.pen p).record.mode = .press) :
    s.startAttempt p = s.setPen p ((s.pen p).started .gathering) := by
  unfold State.startAttempt
  rw [hm]

theorem State.startAttempt_continuous {s : State} {p : Pen} (hm : (s.pen p).record.mode = .continuous) :
    s.startAttempt p = s := by
  unfold State.startAttempt
  rw [hm]

theorem State.startAttempt_locked {s : State} {p : Pen} (hm : (s.pen p).record.mode = .region)
    (hl : (s.tracker p).state = .locked) :
    s.startAttempt p =
      (s.setPen p ((s.pen p).started .regionWait)).setRegionTest p { s.regionTest p with phase := .waiting } := by
  unfold State.startAttempt
  rw [hm]
  exact if_pos hl

theorem State.startAttempt_unlocked {s : State} {p : Pen} (hm : (s.pen p).record.mode = .region)
    (hl : (s.tracker p).state ≠ .locked) :
    s.startAttempt p = (s.setPen p ((s.pen p).started .regionWait)).endMiss p .track (.settled none false) := by
  unfold State.startAttempt
  rw [hm]
  exact if_neg hl

/-- R56: the MISS TRACK of an attempt that PEN MODE starts on a tracker that is not LOCKED. -/
theorem miss_afterMode (s : State) (p : Pen) (e : PenEngine) (next : AttemptState)
    (hnext : next.isHolding = e.attempt.isHolding) :
    let u := afterMode s p { e with attempt := next, firstSeen := 0, frameCount := 0, crowded := false }
    let v := afterMode s p { e with firstSeen := 0, frameCount := 0, crowded := false }
    afterMiss v p (v.pen p) .track next = { u with
      pens := u.pens.set p { u.pen p with lastOutcome := .miss .track }
      regions := { s.regions with tests := s.regions.tests.set p { s.regionTest p with phase := .idle } }
      notices := if u.hasRoom then u.notices.enter (channelSet e.record.channel) (some p) (.miss .track 0 0 false)
        else u.notices } := by
  intro u v
  have room : v.hasRoom = u.hasRoom := by
    rw [show u = v.setPen p _ from (setPen_afterMode ..).symm, State.hasRoom_setPen]
    rw [afterMode_pen]
    exact hnext
  have regions : { v.regions with tests := v.regions.tests.set p { v.regionTest p with phase := .idle } } =
      { s.regions with tests := s.regions.tests.set p { s.regionTest p with phase := .idle } } :=
    congrArg State.regions (setPhase_afterMode s p _ .idle)
  unfold afterMiss
  rw [room, regions]
  simp only [v, u, afterMode_pen]
  simp [afterMode]

/-- Settles O47: the attempt ends in the record's write, and the restart is a start of an attempt. -/
theorem penModeEndsAndRestartsTheAttempt : Obligations.PenModeEndsAndRestartsTheAttempt := by
  intro s arg w h p record hw hw8 hc hcw hspan
  have inRange : modeInRange record = true := (modeInRange_iff record).2 ⟨hw, hw8, hc, hcw, hspan⟩
  have acts (hm : record.mode ≠ .off) : exec (.penMode arg w) s = .next
      ((afterMode s p { s.pen p with record := record, attempt := .ready }).restart p) := by
    rw [exec_penMode_accepted h arg w inRange, State.changeMode_used s _ hm]
  clear_value record p
  have tip : ((afterMode s p { s.pen p with record := record, attempt := .ready }).pen p).tip = (s.pen p).tip := by
    rw [afterMode_pen]
  have mode : ((afterMode s p { s.pen p with record := record, attempt := .ready }).pen p).record.mode =
      record.mode := by
    rw [afterMode_pen]
  have down (ht : (s.pen p).tip = .down) (hm : record.mode ≠ .off) : exec (.penMode arg w) s = .next
      ((afterMode s p { s.pen p with record := record, attempt := .ready }).startAttempt p) := by
    rw [acts hm]
    unfold State.restart
    rw [tip, ht]
  refine ⟨fun hm hrest => ?_, fun hm ht => ?_, fun hm ht hl => ?_, fun hm ht hl => ?_⟩
  · cases ht : (s.pen p).tip with
    | up =>
      rw [acts hm]
      unfold State.restart
      rw [tip, ht]
    | down =>
      have hcont : record.mode = .continuous := hrest.resolve_left (by rw [ht]; decide)
      rw [down ht hm, State.startAttempt_continuous (mode.trans hcont)]
  · rw [down ht (by rw [hm]; decide), State.startAttempt_press (mode.trans hm), started_afterMode]
  · rw [down ht (by rw [hm]; decide), State.startAttempt_locked (mode.trans hm) hl, started_afterMode]
    exact congrArg _ (setPhase_afterMode ..)
  · intro u
    rw [down ht (by rw [hm]; decide), State.startAttempt_unlocked (mode.trans hm) hl, started_afterMode,
      endMiss_eq_afterMiss]
    exact congrArg _ (miss_afterMode s p { s.pen p with record := record, attempt := .regionWait } _ rfl)

/-- R69: the lock that the pen holds is released. -/
theorem State.releaseLock_eq (s : State) (p : Pen) : s.releaseLock p = { s with
    menu := if s.menu.owner = some p then { s.menu with owner := none, idleCounter := 0 } else s.menu } := by
  unfold State.releaseLock
  split <;> rfl

/-- Settles O48: PEN MODE OFF, and the five values that refuse a PEN MODE. -/
theorem penModeOffOrRefused : Obligations.PenModeOffOrRefused := by
  refine ⟨fun s arg w h => ?_, fun s arg w h hbad => ?_⟩
  · intro p record hw hw8 hc hcw hspan hm
    have inRange : modeInRange record = true := (modeInRange_iff record).2 ⟨hw, hw8, hc, hcw, hspan⟩
    rw [exec_penMode_accepted h arg w inRange]
    have off : s.changeMode p record =
        ((afterMode s p { s.pen p with record := record, attempt := .off }).turnTrackerOff p).releaseLock p := by
      unfold State.changeMode
      rw [hm, State.writeMode_endForMode]
    refine congrArg _ (off.trans ?_)
    rw [State.turnTrackerOff_eq, State.notifyIfLocked_free, State.releaseLock_eq]
    · rfl
    · exact .inr (by simp [State.pen, afterMode])
  · refine exec_penMode_refused h arg w ?_
    rw [Bool.eq_false_iff, ne_eq, modeInRange_iff]
    simp only [modeRecord]
    omega

end Sys2Proof.Machine
end

section
/-! Menu picks, and the orders that claim an entry (O45, O46, O52, O7). -/

namespace Sys2Proof.Machine

open Sys2Proof.Stated

/-! ### Items and picks (R132 to R134) -/

theorem MenuUnit.item_of_page {u : MenuUnit} {n k : Nat} {item : Item} (hv : (u.page n).valid = true)
    (hi : (u.page n).items[k]? = some item) : u.item n k = some item := by
  unfold MenuUnit.item
  rw [if_pos hv, hi]

/-- R132: what refuses a pick, and what it does otherwise. -/
theorem MenuUnit.pick_cases (u : MenuUnit) (p : Pen) (n k : Nat) :
    (u.owner = some (otherPen p) → u.pick p n k = (u, .refusedLocked, 0)) ∧
      (u.owner ≠ some (otherPen p) → (u.stack.getLast? ≠ some n ∨ u.item n k = none) →
        u.pick p n k = (u, .refusedStale, 0)) ∧
      ∀ item, u.owner ≠ some (otherPen p) → u.stack.getLast? = some n → u.item n k = some item →
        u.pick p n k = ((u.perform n k item).1.lockFor p, (u.perform n k item).2) := by
  unfold MenuUnit.pick MenuUnit.top
  refine ⟨fun h => if_pos h, fun h hstale => ?_, fun item h htop hitem => ?_⟩
  · rw [if_neg h]
    cases hi : u.item n k with
    | none => rfl
    | some item => exact if_neg (hstale.resolve_right (by rw [hi]; exact Option.some_ne_none item))
  · rw [if_neg h, hitem]
    exact if_pos htop

/-- R134: the page that a TOGGLE writes. -/
theorem MenuUnit.page_withToggle (u : MenuUnit) (n k : Nat) (item : Item) (on : Bool) (m : Nat) :
    (u.withToggle n k item on).page m = if m = n then
        { u.page n with items := (u.page n).items.set k { item with toggle := on } }
      else u.page m := Table.read_write ..

theorem MenuUnit.perform_descend {u : MenuUnit} {n k t : Nat} {item : Item} (h : item.action = .descend t) :
    u.perform n k item =
      if 6 ≤ u.stack.length then (u, .refusedFull, t)
      else if t ∈ u.stack then (u, .refusedLoop, t)
      else if (u.page t).valid = false then (u, .refusedEmpty, t)
      else ({ u with stack := u.stack ++ [t] }, .descended, t) := by
  unfold MenuUnit.perform MenuUnit.descend
  simp only [h, Config.stackDepth, List.contains_iff_mem, Bool.not_eq_true']
  split_ifs <;> rfl

theorem MenuUnit.perform_ascend {u : MenuUnit} {n k : Nat} {item : Item} (h : item.action = .ascend) :
    u.perform n k item =
      if 2 ≤ u.stack.length then ({ u with stack := u.stack.dropLast }, .ascended, 0) else (u, .noChange, 0) := by
  unfold MenuUnit.perform MenuUnit.ascend popPage
  simp only [h]
  split_ifs <;> rfl

/-- Settles O45: the pick's tests in their order, and each action. -/
theorem menuPickIsJudgedAndActs : Obligations.MenuPickIsJudgedAndActs := by
  refine ⟨fun u p n k => u.pick_cases p n k, fun u n k item _ _ => ?_⟩
  intro popped after
  have stack (a : AfterAction) : afterStack a u.stack = after a := by cases a <;> rfl
  refine ⟨fun t h => MenuUnit.perform_descend h, MenuUnit.perform_ascend, fun code a h => ?_, fun a h => ?_⟩
  · unfold MenuUnit.perform
    simp only [h, stack]
  · have acts : u.perform n k item = ({ u.withToggle n k item (!item.toggle) with stack := after a }, .toggled,
        if item.toggle = true then 0 else 1) := by
      unfold MenuUnit.perform
      simp only [h, ← stack]
      rfl
    rw [acts]
    exact ⟨rfl, u.page_withToggle n k item _⟩

/-! ### FORCE ITEM (R141) -/

theorem State.forceItem_shown {s : State} {n k : Nat} {item : Item} (htop : s.menu.stack.getLast? = some n)
    (hitem : s.menu.item n k = some item) :
    let r := s.menu.perform n k item
    let menu := if 2 ≤ r.1.stack.length then r.1 else { r.1 with owner := none, idleCounter := 0 }
    s.forceItem n k = some { s with
      menu := menu
      notices := s.notices.enter (channelSet item.channel) none
        (.menu n k r.2.1 r.2.2 menu.stack.length (menu.stack.getLastD 0) false false true) } := by
  intro r menu
  unfold State.forceItem MenuUnit.top
  rw [hitem]
  simp only [htop, if_true, onlyChannel_eq_channelSet, MenuUnit.notice, MenuUnit.top, List.getLastD_eq_getLast?]
  rfl

theorem State.forceItem_absent {s : State} {n k : Nat} (h : ¬ ShownOnTop s n k) : s.forceItem n k = none := by
  unfold State.forceItem MenuUnit.top
  cases hi : s.menu.item n k with
  | none => rfl
  | some item =>
    have shown := (menuItem_isNone_iff s n k).not.1 (by rw [hi]; exact Bool.false_ne_true)
    exact if_neg fun htop => h ⟨htop, not_not.1 shown⟩

theorem effectHeld_forceItem (s : State) (arg : Arg) :
    s.effectHeld (ctrl 0x25 0 arg) = (s.forceItem (field arg 4 5) (field arg 0 4)).getD
      (s.raiseFault .badValue (ctrl 0x25 0 arg)) := by
  have code : orderOfCode (ctrlCode (ctrl 0x25 0 arg)) = some .forceItem := by
    rw [ctrl_eq_ctrlWord _ _ _ (by decide) (by decide)]
    exact orderOfCode_code .forceItem 0 arg
  unfold State.effectHeld
  rw [code]
  simp only [State.effectForceItem, ctrlArg_ctrl, Nat.reduceLT, forcePage, forceItemNumber]
  cases s.forceItem (field arg 4 5) (field arg 0 4) <;> rfl

/-- R163: an order that claims an entry. -/
theorem State.claimEntry_room {s : State} (h : Room s) (ctrl : Word) : s.claimEntry ctrl = s.effectHeld ctrl := by
  unfold State.claimEntry
  rw [if_pos ((room_iff s).1 h)]

theorem State.claimEntry_full {s : State} (h : ¬ Room s) (ctrl : Word) :
    s.claimEntry ctrl = { s with decoder := { s.decoder with state := .held ctrl } } := by
  unfold State.claimEntry
  rw [(not_room_iff s).1 h]
  rfl

theorem exec_forceItem {s : State} (h : Listens s) (arg : Arg) : exec (.forceItem arg) s = .next
    (if 12 ≤ field arg 0 4 then s.raiseFault .badValue (ctrl 0x25 0 arg) else s.claimEntry (ctrl 0x25 0 arg)) := by
  rw [exec_order h (o := .forceItem) (data := []) rfl (Nat.zero_le _) rfl]
  simp only [State.act, State.orderForceItem]
  rw [show ctrlArg (ctrl (OrderName.code .forceItem) ([] : List Word).length arg) = arg from
    ctrlArg_ctrl (by decide) (by decide) arg]
  rfl

/-- Settles O46: the refusal comes first, then the claim. -/
theorem forceItemPerformsTheAction : Obligations.ForceItemPerformsTheAction := by
  intro s arg h n k
  rw [exec_forceItem h]
  refine ⟨fun item room hk htop hitem => ?_, fun hbad => ?_, fun hk room => ?_⟩
  · rw [if_neg (by omega), State.claimEntry_room room, effectHeld_forceItem, State.forceItem_shown htop hitem]
    rfl
  · rcases hbad with hk | ⟨room, habsent⟩
    · rw [if_pos hk]
    · rw [State.claimEntry_room room, effectHeld_forceItem, State.forceItem_absent habsent]
      exact congrArg _ (ite_self _)
  · rw [if_neg (by omega), State.claimEntry_full room]

/-! ### QUERY (R164) -/

/-- R164: why a query of each subject is refused. -/
def outOfRange (ps : BitVec 10) : Nat → Bool
  | 0 => decide (ps = 0#10)
  | 1 => decide (field ps 0 6 = 0)
  | 3 => decide (12 ≤ field ps 0 4)
  | n => decide (10 ≤ n)

theorem queryRefused_queryArg {subject : Nat} (h : subject < 16) (ch : BitVec 2) (ps : BitVec 10) :
    queryRefused (queryArg subject ch ps) = outOfRange ps subject := by
  have zero : (field ps 0 10 = 0) = (ps = 0#10) := by
    unfold field
    rw [BitVec.extractLsb'_eq_self, ← BitVec.toNat_inj]
    rfl
  unfold queryRefused
  rw [querySubject_queryArg, Nat.mod_eq_of_lt h]
  simp only [querySegmentNumber, queryRegionNumber, queryItemNumber, Config.itemsPerPage, zero,
    queryArg_field _ _ _ 0 10 (by decide), queryArg_field _ _ _ 0 6 (by decide), queryArg_field _ _ _ 0 4 (by decide)]
  rfl

/-- R164: each query arrives with its subject code, and is refused for its own reason. -/
theorem queries_arrive {ch : BitVec 2} {ps : BitVec 10} {q : Nat × Instr × Bool} (hq : q ∈ queries ch ps) :
    q.1 < 10 ∧ (∀ s, exec q.2.1 s = .next (s.arriveOrder .query (queryArg q.1 ch ps) [])) ∧
      q.2.2 = queryRefused (queryArg q.1 ch ps) := by
  simp only [queries, List.mem_cons, List.not_mem_nil, or_false] at hq
  rcases hq with rfl | rfl | rfl | rfl | rfl | rfl | rfl | rfl | rfl | rfl <;>
    exact ⟨by norm_num, fun _ => rfl, by rw [queryRefused_queryArg (by norm_num)]; rfl⟩

theorem replyOf_isSome (s : State) (ps : BitVec 10) {subject : Nat} (h : subject < 10) :
    ∃ reply, replyOf s ps subject = some reply := by
  interval_cases subject <;> exact ⟨_, rfl⟩

theorem exec_query {s : State} (h : Listens s) {ch : BitVec 2} {ps : BitVec 10} {q : Nat × Instr × Bool}
    (hq : q ∈ queries ch ps) : exec q.2.1 s = .next
      (if q.2.2 = true then s.raiseFault .badValue (queryCtrl q.1 ch ps) else s.claimEntry (queryCtrl q.1 ch ps)) := by
  obtain ⟨hlt, harrive, hrefused⟩ := queries_arrive hq
  rw [exec_order h (harrive s) (Nat.zero_le _) rfl, hrefused, queryCtrl_eq_ctrlWord _ (by omega),
    ← ctrl_eq_ctrlWord 0x7F 0 _ (by decide) (by decide)]
  simp only [State.act, State.orderQuery]
  rw [show ctrlArg (ctrl (OrderName.code .query) ([] : List Word).length (queryArg q.1 ch ps)) = queryArg q.1 ch ps from
    ctrlArg_ctrl (by decide) (by decide) _]
  rfl

/-- Settles O52: the refusal comes first, then the claim; what it builds is `effectHeld_query`. -/
theorem queryIsAnsweredHeldOrRefused : Obligations.QueryIsAnsweredHeldOrRefused := by
  refine ⟨fun s ch ps h room q hq hin => ?_, fun s ch ps h q hq => ⟨fun hin room => ?_, fun hout => ?_⟩⟩
  · obtain ⟨hlt, -, -⟩ := queries_arrive hq
    obtain ⟨reply, hreply⟩ := replyOf_isSome s ps hlt
    refine ⟨reply, hreply, ?_⟩
    rw [exec_query h hq, hin, State.claimEntry_room room, effectHeld_query s q.1 (by omega) ch ps reply hreply]
    rfl
  · rw [exec_query h hq, hin, State.claimEntry_full room]
    rfl
  · rw [exec_query h hq, if_pos hout]

/-! ### The routing of an arriving word (R2, R158, R159) -/

theorem queries_subject (ch : BitVec 2) (ps : BitVec 10) {subject : Nat} (h : subject < 10) :
    ∃ q ∈ queries ch ps, q.1 = subject := by
  have subjects : (queries ch ps).map Prod.fst = List.range 10 := rfl
  have mem : subject ∈ (queries ch ps).map Prod.fst := by rw [subjects]; exact List.mem_range.2 h
  exact List.mem_map.1 mem

/-- R164, R179: the QUERY that an argument names brings that argument. -/
theorem queryNamed_arrives {arg : Arg} (h : field arg 12 4 < 10) :
    ∃ c, queryNamed arg = some c ∧ ∀ t, exec c t = .next (t.arriveOrder .query arg []) := by
  obtain ⟨q, hq, hs⟩ := queries_subject (arg.extractLsb' 10 2) (arg.extractLsb' 0 10) h
  have found : ((queries (arg.extractLsb' 10 2) (arg.extractLsb' 0 10)).find? fun q =>
      decide (q.1 = field arg 12 4)).isSome = true :=
    List.find?_isSome.2 ⟨q, hq, decide_eq_true hs⟩
  obtain ⟨r, hr⟩ := Option.isSome_iff_exists.1 found
  obtain ⟨-, harrives, -⟩ := queries_arrive (List.mem_of_find?_eq_some hr)
  have subject : r.1 = field arg 12 4 := by simpa using List.find?_some hr
  refine ⟨r.2.1, by unfold queryNamed; rw [hr]; rfl, fun t => ?_⟩
  rw [harrives, subject, queryArg_fields]

/-- R179: the command that an order's code, argument and data words name is the one that brings that order. -/
theorem orderNamed_arrives {o : OrderName} {arg : Arg} {data : List Word} (hc : o.countRight arg data.length = true)
    (hq : o = .query → field arg 12 4 < 10) :
    ∃ c, orderNamed o.code arg data = some c ∧ ∀ t, exec c t = .next (t.arriveOrder o arg data) := by
  have none_due (h : decide (data.length = 0) = true) : data = [] := List.eq_nil_of_length_eq_zero (of_decide_eq_true h)
  have one_due (h : decide (data.length = 1) = true) : ∃ w, data = [w] := List.length_eq_one_iff.1 (of_decide_eq_true h)
  have pairs_due (h : (decide (data.length % 2 = 0) && decide (2 ≤ data.length) && decide (data.length ≤ 14)) = true) :
      ∃ w rest, data = w :: rest ∧ imageWords (imagePairs data) = data := by
    simp only [Bool.and_eq_true, decide_eq_true_eq] at h
    obtain ⟨⟨heven, hlo⟩, -⟩ := h
    obtain ⟨w, rest, rfl⟩ := List.exists_cons_of_length_pos (show 0 < data.length by omega)
    exact ⟨w, rest, rfl, imageWords_imagePairs _ heven⟩
  cases o with
  | segLoad =>
    obtain ⟨w, rest, rfl, hpairs⟩ := pairs_due hc
    refine ⟨.segLoad arg (imagePairs (w :: rest)), rfl, fun t => ?_⟩
    show Host.Outcome.next (t.arriveOrder .segLoad arg (imageWords (imagePairs (w :: rest)))) = _
    rw [hpairs]
  | segLoadNow =>
    obtain ⟨w, rest, rfl, hpairs⟩ := pairs_due hc
    refine ⟨.segLoadNow arg (imagePairs (w :: rest)), rfl, fun t => ?_⟩
    show Host.Outcome.next (t.arriveOrder .segLoadNow arg (imageWords (imagePairs (w :: rest)))) = _
    rw [hpairs]
  | pageLoad => cases data with
    | nil => exact ⟨.pageLoad arg [], rfl, fun _ => rfl⟩
    | cons w rest => exact ⟨.pageLoad arg (w :: rest), rfl, fun _ => rfl⟩
  | penFence =>
    obtain ⟨w1, w2, rfl⟩ := List.length_eq_two.1 (of_decide_eq_true hc)
    exact ⟨.penFence arg w1 w2, rfl, fun _ => rfl⟩
  | segShow => obtain ⟨w, rfl⟩ := one_due hc; exact ⟨.segShow arg w, rfl, fun _ => rfl⟩
  | regionLoad => obtain ⟨w, rfl⟩ := one_due hc; exact ⟨.regionLoad arg w, rfl, fun _ => rfl⟩
  | penMode => obtain ⟨w, rfl⟩ := one_due hc; exact ⟨.penMode arg w, rfl, fun _ => rfl⟩
  | trackSet => obtain ⟨w, rfl⟩ := one_due hc; exact ⟨.trackSet arg w, rfl, fun _ => rfl⟩
  | query =>
    rw [none_due hc]
    obtain ⟨c, hnamed, harrives⟩ := queryNamed_arrives (hq rfl)
    exact ⟨c, hnamed, harrives⟩
  | _ =>
    rw [none_due hc]
    exact ⟨_, rfl, fun _ => rfl⟩

/-- R159: an order with an unknown code, or a data count that its code does not expect, is refused. -/
theorem takeOrder_unexpected (t : State) {ctrl : Word} {data : List Word}
    (h : ¬ CountExpected (ctrlCode ctrl) (ctrlArg ctrl) data.length) :
    t.takeOrder ctrl data = t.raiseFault .badControl ctrl := by
  rw [countExpected_iff] at h
  unfold State.takeOrder
  split
  · rfl
  · next o ho => exact if_neg fun hc => h ⟨o, ho, hc⟩

/-- R164: a QUERY of a subject code that names no subject is refused. -/
theorem takeOrder_unknownSubject (t : State) {ctrl : Word} (hcode : ctrlCode ctrl = 0x7F)
    (hs : 10 ≤ field (ctrlArg ctrl) 12 4) : t.takeOrder ctrl [] = t.raiseFault .badValue ctrl := by
  have subject : querySubject (ctrlArg ctrl) = field (ctrlArg ctrl) 12 4 := rfl
  have refused : queryRefused (ctrlArg ctrl) = true := by
    unfold queryRefused
    rw [subject]
    generalize field (ctrlArg ctrl) 12 4 = n at hs
    split
    · omega
    · omega
    · omega
    · exact decide_eq_true hs
  unfold State.takeOrder
  rw [hcode]
  show State.orderQuery t ctrl = _
  unfold State.orderQuery
  rw [if_pos refused]
  rfl

theorem arrive_kept {s : State} (h : s.link.held ≠ none ∨ (∃ c, s.decoder.state = .held c) ∨ s.decoder.state = .drain)
    (w : Word) : s.arrive w = s := by
  refine State.arrive_not_ready ?_ w
  rw [Bool.eq_false_iff]
  intro ready
  have held := s.held_of_ready ready
  unfold State.upstreamReady at ready
  rcases h with h | ⟨c, h⟩ | h
  · exact h held
  · simp [h, DecoderState.isHeld] at ready
  · simp [h] at ready

theorem arrive_collecting {s : State} (held : s.link.held = none) {ctrl : Word} {got : List Word}
    (collecting : s.decoder.state = .collecting ctrl got) (w : Word) : s.arrive w = s.takeData ctrl got w := by
  have ready : s.upstreamReady = true := by simp [State.upstreamReady, held, collecting, DecoderState.isHeld]
  unfold State.arrive
  rw [if_pos ready, collecting]

theorem arrive_idle {s : State} (h : Listens s) (w : Word) : s.arrive w = s.takeWord w := by
  unfold State.arrive
  rw [if_pos h.upstreamReady, h.2]

/-- R2: a word that is neither CTRL nor FRAME is held. -/
theorem takeWord_held (s : State) {w : Word} (hctrl : wordKind w ≠ .ctrl) (hframe : wordKind w ≠ .frame) :
    s.takeWord w = s.hold w := by
  unfold State.takeWord
  split
  · next h => exact absurd h hctrl
  · next h => exact absurd h hframe
  all_goals rfl

theorem takeWord_ctrl (s : State) {w : Word} (h : wordKind w = .ctrl) : s.takeWord w = s.takeCtrl w := by
  unfold State.takeWord
  rw [h]

theorem takeWord_frame (s : State) {w : Word} (h : wordKind w = .frame) : s.takeWord w = (s.hold w).fixCrosses := by
  unfold State.takeWord
  rw [h]

/-- Settles O7: the word is held, kept, collected, or the last of an order. -/
theorem wordArrivalIsRouted : Obligations.WordArrivalIsRouted := by
  refine ⟨fun s w => ⟨fun h hctrl hframe => ?_, fun h => congrArg _ (arrive_kept h w), fun h hk hcount => ?_⟩,
    fun s ctrl w got held collecting hmore => ?_, fun s t w ctrl data h => ?_⟩
  · exact congrArg _ ((arrive_idle h w).trans (takeWord_held s hctrl hframe))
  · refine congrArg _ (((arrive_idle h w).trans (takeWord_ctrl s hk)).trans ?_)
    unfold State.takeCtrl
    rw [if_neg hcount]
  · refine congrArg _ ((arrive_collecting held collecting w).trans ?_)
    have more : (got ++ [w]).length < ctrlCount ctrl := by rw [List.length_append]; exact hmore
    exact if_pos more
  · intro code arg
    refine ⟨fun hbad => ?_, fun hcode hdata hs => ?_, fun hcount hs => ?_⟩
    · exact congrArg _ (h.arrive.trans (takeOrder_unexpected t hbad))
    · rw [hdata] at h
      exact congrArg _ (h.arrive.trans (takeOrder_unknownSubject t hcode hs))
    · obtain ⟨o, ho, hright⟩ := (countExpected_iff _ _ _).1 hcount
      have code_eq := (orderOfCode_eq_some_iff _ _).1 ho
      obtain ⟨c, hnamed, harrives⟩ := orderNamed_arrives hright fun hq => hs (by rw [← code_eq, hq]; rfl)
      rw [code_eq] at hnamed
      exact ⟨c, hnamed, (congrArg Host.Outcome.next (h.arriveOrder code_eq).symm).trans (harrives t).symm⟩

end Sys2Proof.Machine
end

section
/-! What a delivery does (R63, R90 to R92, R121), in the terms of the statements. -/

namespace Sys2Proof.Machine

open Sys2Proof.Stated

theorem PenEngine.afterDelivery_eq (e : PenEngine) (key : Option Key) : e.afterDelivery key = Stated.afterDelivery e key := by
  unfold PenEngine.afterDelivery Stated.afterDelivery
  cases e.record.mode <;> cases e.tip <;> rfl

theorem State.routeOr_eq_routeOf (s : State) (route : BitVec 4) (p : Pen) : s.routeOr route p = routeOf s p route := by
  unfold State.routeOr routeOf State.defaultRoute
  rw [onlyChannel_eq_channelSet]
  rfl

/-! ### Marks (R29, R92) -/

theorem State.markPicked_frame (s : State) (p : Pen) (seg : Nat) :
    s.markPicked p seg = { s with segments := (s.markPicked p seg).segments } := by
  unfold State.markPicked
  split <;> rfl

theorem markedAs_markPicked (s : State) (p : Pen) {seg : Nat} (h : seg ≠ 0) : MarkedAs s p seg (s.markPicked p seg) := by
  intro n
  unfold State.markPicked
  by_cases hm : (s.pen p).record.mark = true
  · simp only [hm, if_true, true_and]
    unfold State.markSegment
    rw [State.segEntry_setSegEntry h]
    split
    · next hn => rw [hn]; rfl
    · rfl
  · simp [hm]

/-- What a mark reads of a state. -/
theorem markedAs_of_eq {s t u v : State} {p : Pen} {seg : Nat} (h : MarkedAs s p seg t) (hs : u.segments = s.segments)
    (hp : (u.pen p).record.mark = (s.pen p).record.mark) (ht : v.segments = t.segments) : MarkedAs u p seg v := by
  intro n
  have entry {a b : State} (hab : a.segments = b.segments) : a.segEntry n = b.segEntry n := by
    unfold State.segEntry
    rw [hab]
  rw [entry ht, entry hs, hp]
  exact h n

/-! ### The three deliveries (R90 to R92, R121) -/

theorem State.deliverRegion_eq (s : State) (p : Pen) (r : Nat) (point : Point) (saturated : Bool) :
    s.deliverRegion p r point saturated = { s with
      notices := s.notices.enter (routeOf s p (s.regions.record r).route) (some p) (.region r point saturated)
      pens := s.pens.set p { s.pen p with attempt := afterDelivery (s.pen p) none, lastOutcome := .region } } := by
  unfold State.deliverRegion State.finishDelivery
  rw [State.routeOr_eq_routeOf, PenEngine.afterDelivery_eq]
  rfl

/-- R104: a drag seed; no region attempt rests on the lock. -/
theorem State.dragSeed_eq {s : State} {p : Pen} (hr : (s.pen p).attempt ≠ .regionWait ∧ (s.pen p).attempt ≠ .regionCount)
    (strike : Point) : s.dragSeed p strike = { s with trackers := s.trackers.set p { s.tracker p with
      state := .seeking, position := strike, missCount := 0, settle := false, stale := true, origin := .drag
      tally := ⟨0, 0, 0, 0⟩, lastReported := strike } } :=
  State.notifyIfLocked_free (s := s.setTracker p { s.tracker p with
    state := .seeking, position := strike, missCount := 0, settle := false, stale := true, origin := .drag
    tally := ⟨0, 0, 0, 0⟩, lastReported := strike }) (.inr hr)

/-- R90, R91: a PICK; the mark needs a segment that has an entry. -/
theorem State.deliverPick_cases {s : State} {p : Pen}
    (hr : (s.pen p).attempt ≠ .regionWait ∧ (s.pen p).attempt ≠ .regionCount) (key : Key) (strike : Point) (cycled : Bool) :
    let t := s.deliverPick p key strike cycled
    t = { s with
      segments := t.segments
      notices := s.notices.enter (routeOf s p (s.image key.segment).route) (some p)
        (.pick key (s.image key.segment).cls strike cycled (s.pen p).record.mark (s.image key.segment).drag)
      pens := s.pens.set p { s.pen p with attempt := afterDelivery (s.pen p) (some key), lastOutcome := .pick }
      trackers := if (s.image key.segment).drag = true then s.trackers.set p { s.tracker p with
          state := .seeking, position := strike, missCount := 0, settle := false, stale := true, origin := .drag
          tally := ⟨0, 0, 0, 0⟩, lastReported := strike }
        else s.trackers } ∧
    (key.segment ≠ 0 → MarkedAs s p key.segment t) := by
  unfold State.deliverPick State.finishDelivery
  dsimp only
  rw [State.routeOr_eq_routeOf]
  generalize hq : s.enterNotice (routeOf s p (s.image key.segment).route) (some p)
    (.pick key (s.image key.segment).cls strike cycled (s.pen p).record.mark (s.image key.segment).drag) = q
  have marked (hseg : key.segment ≠ 0) := markedAs_of_eq (u := s) (v := q.markPicked p key.segment)
    (markedAs_markPicked q p hseg) (by rw [← hq]; rfl) (by rw [← hq]; rfl) rfl
  have frame := q.markPicked_frame p key.segment
  generalize q.markPicked p key.segment = m at marked frame
  generalize hx : m.segments = x at frame
  subst hq
  subst frame
  rw [PenEngine.afterDelivery_eq]
  by_cases hd : (s.image key.segment).drag = true
  · rw [if_pos hd, State.dragSeed_eq]
    · exact ⟨by rw [if_pos hd]; rfl, marked⟩
    · exact hr
  · rw [if_neg hd]
    exact ⟨by rw [if_neg hd]; rfl, marked⟩

theorem State.delivers_pick {s : State} {p : Pen} {key : Key} (hseg : key.segment ≠ 0)
    (hr : (s.pen p).attempt ≠ .regionWait ∧ (s.pen p).attempt ≠ .regionCount) (strike : Point) (cycled : Bool) :
    DeliversPick s p key strike cycled (s.image key.segment).drag (s.deliverPick p key strike cycled) := by
  obtain ⟨frame, marked⟩ := State.deliverPick_cases hr key strike cycled
  exact ⟨frame, marked hseg⟩

/-- R92: a menu pick; the mark needs a segment that has an entry. -/
theorem State.deliverMenu_cases (s : State) (p : Pen) (key : Key) (n k : Nat) (cycled : Bool) :
    let t := s.deliverMenu p key n k cycled
    let r := s.menu.pick p n k
    let route := match s.menu.item n k with
      | some item => channelSet item.channel
      | none => channelSet (s.pen p).record.channel
    t = { s with
      segments := t.segments
      menu := r.1
      notices := s.notices.enter route (some p)
        (.menu n k r.2.1 r.2.2 r.1.stack.length (r.1.stack.getLastD 0) cycled (s.pen p).record.mark false)
      pens := s.pens.set p { s.pen p with attempt := afterDelivery (s.pen p) (some key), lastOutcome := .menu } } ∧
    (key.segment ≠ 0 → MarkedAs s p key.segment t) := by
  unfold State.deliverMenu State.finishDelivery
  generalize hq : s.menuPick p n k cycled (s.pen p).record.mark = q
  have marked (hseg : key.segment ≠ 0) := markedAs_of_eq (u := s) (v := q.markPicked p key.segment)
    (markedAs_markPicked q p hseg) (by rw [← hq]; rfl) (by rw [← hq]; rfl) rfl
  have frame := q.markPicked_frame p key.segment
  generalize q.markPicked p key.segment = m at marked frame
  generalize hx : m.segments = x at frame
  subst hq
  subst frame
  refine ⟨?_, marked⟩
  rw [PenEngine.afterDelivery_eq]
  unfold State.menuPick State.defaultRoute MenuUnit.notice MenuUnit.top
  simp only [onlyChannel_eq_channelSet, List.getLastD_eq_getLast?]
  rfl

theorem State.delivers_menu {s : State} {p : Pen} {key : Key} (hseg : key.segment ≠ 0) (n k : Nat) (cycled : Bool) :
    DeliversMenu s p key n k cycled (s.deliverMenu p key n k cycled) := by
  obtain ⟨frame, marked⟩ := s.deliverMenu_cases p key n k cycled
  exact ⟨frame, marked hseg⟩

/-- 2.1: segment 0 has no entry, so its image is UNUSED. -/
theorem State.segment_ne_zero {s : State} {n : Nat} (h : (s.image n).kind ≠ .unused) : n ≠ 0 := by
  rintro rfl
  exact h rfl

theorem State.deliver_menu {s : State} {key : Key} {n k : Nat} (h : (s.image key.segment).kind = .menu n k) (p : Pen)
    (strike : Point) (cycled : Bool) :
    s.deliver p (.winner key strike cycled) = s.deliverMenu p key n k cycled := by
  unfold State.deliver
  simp only [h]

theorem State.deliver_pick {s : State} {key : Key} (h : ∀ n k, (s.image key.segment).kind ≠ .menu n k) (p : Pen)
    (strike : Point) (cycled : Bool) :
    s.deliver p (.winner key strike cycled) = s.deliverPick p key strike cycled := by
  unfold State.deliver
  cases hk : (s.image key.segment).kind with
  | menu n k => exact absurd hk (h n k)
  | unused => simp only [hk]
  | drawing d b => simp only [hk]

end Sys2Proof.Machine
end

section
/-! The notice lane and the grants (O31 to O36). -/

namespace Sys2Proof.Machine

open Sys2Proof.Stated

/-! ### How many claims wait (R149) -/

/-- R149: the claim waits, passed over or not. -/
def State.claimed (s : State) : Claimant → Bool
  | .decoder => s.decoder.state.isHeld
  | .penEngine p => (s.pen p).attempt.isHolding
  | .track p => (s.tracker p).trackClaim.isSome
  | .position p => (s.tracker p).positionClaim.isSome
  | .idleReturn => s.menu.claim.isSome

theorem State.claimed_of_grantable {s : State} {c : Claimant} (h : s.grantable c = true) : s.claimed c = true := by
  cases c with
  | position p =>
    simp only [State.grantable, Bool.and_eq_true] at h
    exact h.1
  | _ => exact h

/-- R150: how many claims wait. The order of the grants names each claimant once. -/
def State.claimCount (s : State) : Nat := s.grantOrder.countP s.claimed

theorem State.mem_grantOrder (s : State) (c : Claimant) : c ∈ s.grantOrder := by
  unfold State.grantOrder
  cases c with
  | penEngine p => cases p <;> cases s.notices.lastPen <;> decide
  | track p => cases p <;> simp
  | position p => cases p <;> simp
  | _ => simp

theorem State.grantOrder_perm (s t : State) : s.grantOrder.Perm t.grantOrder := by
  unfold State.grantOrder
  cases s.notices.lastPen <;> cases t.notices.lastPen <;> decide

theorem List.countP_lt_of_served {α : Type} {l : List α} {f g : α → Bool} {c : α} (hc : c ∈ l) (hf : f c = true)
    (hg : g c = false) (h : ∀ d, g d = true → f d = true) : l.countP g < l.countP f := by
  obtain ⟨before, after, rfl⟩ := List.append_of_mem hc
  have hb := List.countP_mono_left (l := before) fun d _ => h d
  have ha := List.countP_mono_left (l := after) fun d _ => h d
  rw [List.countP_append, List.countP_append, List.countP_cons_of_pos hf, List.countP_cons_of_neg (by simp [hg])]
  omega

/-- A grant serves its claim, and no new claim is made. -/
structure Serves (s : State) (c : Claimant) (t : State) : Prop where
  served : t.claimed c = false
  others : ∀ d, t.claimed d = true → s.claimed d = true

theorem Serves.claimCount {s t : State} {c : Claimant} (h : Serves s c t) (hc : s.claimed c = true) :
    t.claimCount < s.claimCount := by
  unfold State.claimCount
  rw [(t.grantOrder_perm s).countP_eq]
  exact List.countP_lt_of_served (s.mem_grantOrder c) hc h.served h.others

/-! ### A grant serves its claim -/

theorem MenuUnit.perform_claim (u : MenuUnit) (n k : Nat) (item : Item) : (u.perform n k item).1.claim = u.claim := by
  unfold MenuUnit.perform
  split
  · unfold MenuUnit.descend
    split_ifs <;> rfl
  · unfold MenuUnit.ascend
    split_ifs <;> rfl
  · rfl
  · rfl

theorem MenuUnit.pick_claim (u : MenuUnit) (p : Pen) (n k : Nat) : (u.pick p n k).1.claim = u.claim := by
  unfold MenuUnit.pick
  split
  · rfl
  · split
    · rfl
    · split
      · exact u.perform_claim n k _
      · rfl

/-- What the claims are read from. -/
theorem State.claimed_congr {s t : State} (hd : t.decoder = s.decoder) (hp : t.pens = s.pens)
    (ht : t.trackers = s.trackers) (hm : t.menu.claim = s.menu.claim) : t.claimed = s.claimed := by
  funext c
  cases c <;> simp [State.claimed, State.pen, State.tracker, hd, hp, ht, hm]

/-- R163: an order that takes effect makes no claim. -/
theorem State.claimed_effectHeld (s : State) (ctrl : Word) : (s.effectHeld ctrl).claimed = s.claimed := by
  unfold State.effectHeld
  split
  · unfold State.effectForceItem
    split
    · next t ht =>
      unfold State.forceItem at ht
      split at ht
      · cases ht
      · next item _ =>
        split at ht
        · cases ht
          refine State.claimed_congr rfl rfl rfl ?_
          show (MenuUnit.lockForced _).claim = _
          unfold MenuUnit.lockForced
          split <;> exact s.menu.perform_claim _ _ item
        · cases ht
    · exact State.claimed_congr (by simp [State.badValue]) (by simp [State.badValue]) (by simp [State.badValue])
        (by simp [State.badValue])
  · unfold State.answerQuery
    split
    · unfold State.afterReply
      split <;> exact State.claimed_congr rfl rfl rfl rfl
    · rfl

theorem serves_grantDecoder (s : State) : Serves s .decoder s.grantDecoder := by
  unfold State.grantDecoder
  split
  · refine ⟨?_, fun d hd => ?_⟩
    · rw [State.claimed_effectHeld]; rfl
    · rw [State.claimed_effectHeld] at hd
      cases d with
      | decoder => cases hd
      | _ => exact hd
  all_goals
    next h =>
      exact ⟨by simp [State.claimed, h, DecoderState.isHeld], fun _ hd => hd⟩

/-- R63: a delivery leaves the other pen, the claims of the trackers and that of the Menu Unit as they were. -/
theorem State.deliver_leaves {s : State} {p : Pen} (o : HeldOutcome)
    (hr : (s.pen p).attempt ≠ .regionWait ∧ (s.pen p).attempt ≠ .regionCount) :
    (∀ q, q ≠ p → (s.deliver p o).pen q = s.pen q) ∧
      (∀ q, ((s.deliver p o).tracker q).trackClaim = (s.tracker q).trackClaim ∧
        ((s.deliver p o).tracker q).positionClaim = (s.tracker q).positionClaim) ∧
      (s.deliver p o).menu.claim = s.menu.claim := by
  have other (v : PenEngine) (q : Pen) (hq : q ≠ p) : (s.pens.set p v).get q = s.pen q := Pair.get_set_other _ hq v
  cases o with
  | region r point saturated =>
    show _ ∧ _ ∧ (s.deliverRegion p r point saturated).menu.claim = _
    rw [show s.deliver p (.region r point saturated) = _ from State.deliverRegion_eq ..]
    exact ⟨other _, fun q => ⟨rfl, rfl⟩, rfl⟩
  | winner key strike cycled =>
    by_cases hm : ∃ n k, (s.image key.segment).kind = .menu n k
    · obtain ⟨n, k, hm⟩ := hm
      obtain ⟨frame, -⟩ := s.deliverMenu_cases p key n k cycled
      rw [State.deliver_menu hm, frame]
      exact ⟨other _, fun q => ⟨rfl, rfl⟩, s.menu.pick_claim p n k⟩
    · obtain ⟨frame, -⟩ := State.deliverPick_cases hr key strike cycled
      rw [State.deliver_pick (by simpa using hm), frame]
      refine ⟨other _, fun q => ?_, rfl⟩
      unfold State.tracker
      split
      · by_cases hq : q = p
        · subst hq; simp
        · simp [Pair.get_set_other _ hq]
      · exact ⟨rfl, rfl⟩

theorem serves_deliver {s : State} {p : Pen} {o : HeldOutcome} (ho : (s.pen p).attempt = .holding o) :
    Serves s (.penEngine p) (s.deliver p o) := by
  have hr : (s.pen p).attempt ≠ .regionWait ∧ (s.pen p).attempt ≠ .regionCount := by rw [ho]; exact ⟨nofun, nofun⟩
  obtain ⟨key, last, pen⟩ := s.deliver_pen p o (.inl (by simp [PenView.InRegion, State.view, ho]))
  have delivered : ((s.deliver p o).pen p).attempt.isHolding = false := by
    rw [pen]
    obtain ⟨k, ha⟩ | ha := (s.pen p).afterDelivery_cases key <;> simp only [ha] <;> rfl
  obtain ⟨pens, trackers, menu⟩ := State.deliver_leaves o hr
  refine ⟨delivered, fun d hd => ?_⟩
  cases d with
  | decoder => simpa [State.claimed] using hd
  | penEngine q =>
    by_cases hq : q = p
    · subst hq
      exact absurd hd (by simp [State.claimed, delivered])
    · simpa [State.claimed, pens q hq] using hd
  | track q => simpa [State.claimed, (trackers q).1] using hd
  | position q => simpa [State.claimed, (trackers q).2] using hd
  | idleReturn => simpa [State.claimed, menu] using hd

/-- A tracker's claim that is granted. -/
theorem serves_setTracker {s : State} {p : Pen} {v : Tracker} {c : Claimant}
    (h : c = .track p ∧ v.trackClaim = none ∧ v.positionClaim = (s.tracker p).positionClaim ∨
      c = .position p ∧ v.positionClaim = none ∧ v.trackClaim = (s.tracker p).trackClaim) :
    Serves s c (s.setTracker p v) := by
  have tracker (q : Pen) : (s.setTracker p v).tracker q = if q = p then v else s.tracker q := by
    split
    · next hq => rw [hq, State.tracker_setTracker]
    · next hq => exact State.tracker_setTracker_other (h := hq) ..
  rcases h with ⟨rfl, hn, hs⟩ | ⟨rfl, hn, hs⟩
  all_goals
    refine ⟨by simp [State.claimed, hn], fun d hd => ?_⟩
    cases d with
    | track q =>
      simp only [State.claimed, tracker] at hd ⊢
      split at hd <;> simp_all
    | position q =>
      simp only [State.claimed, tracker] at hd ⊢
      split at hd <;> simp_all
    | _ => exact hd

theorem serves_grant {s : State} {c : Claimant} (h : s.claimed c = true) : Serves s c (s.grant c) := by
  cases c with
  | decoder => exact serves_grantDecoder s
  | penEngine p =>
    obtain ⟨o, ho⟩ : ∃ o, (s.pen p).attempt = .holding o := by
      simp only [State.claimed] at h
      cases ha : (s.pen p).attempt <;> simp_all [AttemptState.isHolding]
    unfold State.grant State.grantPen
    simp only [ho]
    obtain ⟨served, others⟩ := serves_deliver (s := { s with notices := { s.notices with lastPen := p } }) ho
    refine ⟨served, fun d hd => ?_⟩
    have claimed := others d hd
    cases d <;> exact claimed
  | track p =>
    obtain ⟨c, hc⟩ := Option.isSome_iff_exists.1 h
    unfold State.grant State.grantTrack
    simp only [hc]
    obtain ⟨served, others⟩ := serves_setTracker (s := s) (p := p) (v := { s.tracker p with trackClaim := none })
      (.inl ⟨rfl, rfl, rfl⟩)
    exact ⟨served, others⟩
  | position p =>
    obtain ⟨c, hc⟩ := Option.isSome_iff_exists.1 h
    unfold State.grant State.grantPosition
    simp only [hc]
    obtain ⟨served, others⟩ := serves_setTracker (s := s) (p := p) (v := { s.tracker p with positionClaim := none })
      (.inr ⟨rfl, rfl, rfl⟩)
    exact ⟨served, others⟩
  | idleReturn =>
    obtain ⟨c, hc⟩ := Option.isSome_iff_exists.1 h
    unfold State.grant State.grantIdleReturn
    simp only [hc]
    refine ⟨rfl, fun d hd => ?_⟩
    cases d with
    | idleReturn => cases hd
    | _ => exact hd

/-! ### The round of grants (R150) -/

theorem State.nextGrant_claimed {s : State} {c : Claimant} (h : s.nextGrant = some c) : s.claimed c = true := by
  unfold State.nextGrant at h
  split at h
  · exact State.claimed_of_grantable (List.find?_some h)
  · cases h

/-- R149, R150: a round of as many grants as claims wait leaves none that could be served. -/
theorem nextGrant_grantRound {n : Nat} {s : State} (h : s.claimCount ≤ n) : (State.grantRound n s).nextGrant = none := by
  induction n generalizing s with
  | zero =>
    cases hc : s.nextGrant with
    | none => rw [State.grantRound, hc]
    | some c =>
      have zero := List.countP_eq_zero.1 (Nat.le_zero.1 h) c (s.mem_grantOrder c)
      exact absurd (State.nextGrant_claimed hc) zero
  | succ n ih =>
    unfold State.grantRound
    cases hc : s.nextGrant with
    | none => exact hc
    | some c =>
      have claimed := State.nextGrant_claimed hc
      have fewer := (serves_grant claimed).claimCount claimed
      exact ih (by omega)

theorem State.claimCount_le (s : State) : s.claimCount ≤ maxClaims := List.countP_le_length

/-- R150: the grants that an accept makes after it has freed an entry. -/
theorem LastWordDue.grantsFollow {s : State} {n : Notice} {rest : List Notice} (h : LastWordDue s n rest) :
    exec .noticeAccept s = .next (State.grantRound maxClaims (freed s rest)) ∧
      GrantsFollow (freed s rest) (State.grantRound maxClaims (freed s rest)) ∧
      (State.grantRound maxClaims (freed s rest)).nextGrant = none := by
  have done := nextGrant_grantRound (freed s rest).claimCount_le
  exact ⟨congrArg _ h.acceptWord, grantsFollow_grantRound _ _ done, done⟩

/-- R150, log 8: a grant command at its turn, and the grants after it. -/
theorem GrantDue.follows {s f : State} {c : Claimant} (h : GrantDue s c f) {cmd : Instr}
    (hcmd : exec cmd s = .next (s.grantAtFreeing c)) :
    ∃ u, exec cmd s = .next u ∧ exec .noticeAccept s = .next u ∧ GrantsFollow (f.grant c) u := by
  obtain ⟨atFreeing, accept⟩ := h.grantAtFreeing
  have claimed := State.nextGrant_claimed ((grantDue_iff _ _ _).1 h).2
  have fewer := (serves_grant claimed).claimCount claimed
  have most := f.claimCount_le
  have done : (State.grantRound 7 (f.grant c)).nextGrant = none :=
    nextGrant_grantRound (by simp only [maxClaims] at most; omega)
  refine ⟨_, hcmd.trans (congrArg _ (atFreeing.trans accept)), congrArg _ accept, grantsFollow_grantRound _ _ done⟩

/-- R146: an accept of the head before its last word, and of an empty queue. -/
theorem State.acceptWord_cases (s : State) :
    (s.notices.queue = [] → s.acceptWord = s) ∧
      ∀ n rest, s.notices.queue = n :: rest → n.accepted + 1 < n.length →
        s.acceptWord = { s with notices := { s.notices with queue := { n with accepted := n.accepted + 1 } :: rest } } := by
  unfold State.acceptWord State.freeing
  refine ⟨fun hq => ?_, fun n rest hq hmore => ?_⟩
  · simp [hq]
  · simp [hq, hmore]

/-- R150: nothing is granted without a claim, and nothing without room. -/
theorem State.nextGrant_eq_none {s : State} (h : NoClaims s ∨ 30 ≤ s.notices.queue.length) : s.nextGrant = none := by
  cases hc : s.nextGrant with
  | none => rfl
  | some c =>
    obtain ⟨room, waits, -⟩ := (servedNext_iff s c).2 hc
    rcases h with ⟨hdec, hpen, htrack, hmenu⟩ | hfull
    · cases c with
      | decoder => obtain ⟨ctrl, hctrl⟩ := waits; exact absurd hctrl (hdec ctrl)
      | penEngine p => obtain ⟨o, ho⟩ := waits; exact absurd ho (hpen p o)
      | track p => exact absurd (htrack p).1 waits
      | position p => exact absurd (htrack p).2 waits.1
      | idleReturn => exact absurd hmenu waits
    · omega

/-- Settles O31: the accept of a last word makes no grant where none is due. -/
theorem acceptTakesOneWord : Obligations.AcceptTakesOneWord := by
  intro s n rest
  obtain ⟨hempty, hmore⟩ := s.acceptWord_cases
  refine ⟨fun hq => congrArg _ (hempty hq), fun hq hlt => congrArg _ (hmore n rest hq hlt), fun h hidle => ?_⟩
  have idle : (freed s rest).nextGrant = none := State.nextGrant_eq_none hidle
  refine congrArg _ (h.acceptWord.trans ?_)
  show State.grantRound (7 + 1) (freed s rest) = _
  unfold State.grantRound
  rw [idle]
  rfl

/-- R150: once nothing can be granted, the queue is full or no claim waits. -/
theorem State.full_of_nextGrant {s : State} (h : s.nextGrant = none) :
    30 ≤ s.notices.queue.length ∨ ∀ c, ¬ Waiting s c := by
  unfold State.nextGrant at h
  split at h
  · refine .inr fun c hc => ?_
    exact List.find?_eq_none.1 h c (s.mem_grantOrder c) ((waiting_iff s c).1 hc)
  · next full =>
    rw [s.entryFree_iff] at full
    exact .inl (by omega)

/-- The fields that no grant changes. -/
structure GrantFrame (s t : State) : Prop where
  link : t.link = s.link
  beam : t.beam = s.beam
  injection : t.injection = s.injection
  pending : t.pending = s.pending
  draws : t.draws = s.draws

theorem GrantFrame.refl (s : State) : GrantFrame s s := ⟨rfl, rfl, rfl, rfl, rfl⟩

theorem GrantFrame.trans {s t u : State} (h : GrantFrame s t) (k : GrantFrame t u) : GrantFrame s u :=
  ⟨k.link.trans h.link, k.beam.trans h.beam, k.injection.trans h.injection, k.pending.trans h.pending,
    k.draws.trans h.draws⟩

theorem grantFrame_effectHeld (s : State) (ctrl : Word) : GrantFrame s (s.effectHeld ctrl) := by
  unfold State.effectHeld
  split
  · unfold State.effectForceItem
    split
    · next t ht =>
      unfold State.forceItem at ht
      split at ht
      · cases ht
      · split at ht
        · cases ht; exact ⟨rfl, rfl, rfl, rfl, rfl⟩
        · cases ht
    · unfold State.badValue
      exact ⟨by simp, by simp, by simp, by simp, by simp⟩
  · unfold State.answerQuery
    split
    · unfold State.afterReply
      split <;> exact ⟨rfl, rfl, rfl, rfl, rfl⟩
    · exact .refl s

theorem grantFrame_grant (s : State) (c : Claimant) : GrantFrame s (s.grant c) := by
  cases c with
  | decoder =>
    unfold State.grant State.grantDecoder
    simp only
    split
    · exact GrantFrame.trans (t := { s with decoder := { s.decoder with state := .idle } }) ⟨rfl, rfl, rfl, rfl, rfl⟩
        (grantFrame_effectHeld _ _)
    all_goals exact .refl s
  | penEngine p =>
    unfold State.grant State.grantPen
    simp only
    split
    · exact ⟨by simp, by simp, by simp, by simp, by simp⟩
    all_goals exact .refl s
  | track p =>
    unfold State.grant State.grantTrack
    simp only
    split
    · exact ⟨rfl, rfl, rfl, rfl, rfl⟩
    · exact .refl s
  | position p =>
    unfold State.grant State.grantPosition
    simp only
    split
    · exact ⟨rfl, rfl, rfl, rfl, rfl⟩
    · exact .refl s
  | idleReturn =>
    unfold State.grant State.grantIdleReturn
    simp only
    split
    · exact ⟨rfl, rfl, rfl, rfl, rfl⟩
    · exact .refl s

theorem grantFrame_grantRound (n : Nat) (s : State) : GrantFrame s (State.grantRound n s) := by
  induction n generalizing s with
  | zero => exact .refl s
  | succ n ih =>
    unfold State.grantRound
    split
    · exact .refl s
    · exact (grantFrame_grant s _).trans (ih _)

/-- Settles O32: eight grants serve all the claims that can wait. -/
theorem grantsLastAsLongAsRoom : Obligations.GrantsLastAsLongAsRoom := by
  intro s n rest h
  obtain ⟨accepts, follow, done⟩ := LastWordDue.grantsFollow h
  have frame := grantFrame_grantRound maxClaims (freed s rest)
  exact ⟨_, accepts, follow, State.full_of_nextGrant done, frame.link, frame.beam, frame.injection, frame.pending,
    frame.draws⟩

/-! ### The grant of each claim (R63, R108, R139, R163) -/

/-- Settles O33: a grant command at its turn is the accept, and at any other time nothing. -/
theorem claimGrants : Obligations.ClaimGrants := by
  refine ⟨fun s f p => ⟨fun c due hc => ?_, fun c due hc => ?_, fun c due hc => ?_⟩, fun s p => ?_⟩
  · obtain ⟨u, grants, accepts, follow⟩ := GrantDue.follows due (cmd := .trackClaimGrant p) rfl
    refine ⟨u, grants, accepts, ?_⟩
    rw [← onlyChannel_eq_channelSet]
    simp only [State.grant, State.grantTrack, hc] at follow
    exact follow
  · obtain ⟨u, grants, accepts, follow⟩ := GrantDue.follows due (cmd := .positionClaimGrant p) rfl
    refine ⟨u, grants, accepts, ?_⟩
    rw [← onlyChannel_eq_channelSet]
    simp only [State.grant, State.grantPosition, hc] at follow
    exact follow
  · obtain ⟨u, grants, accepts, follow⟩ := GrantDue.follows due (cmd := .idleReturnGrant) rfl
    refine ⟨u, grants, accepts, ?_⟩
    rw [← onlyChannel_eq_channelSet]
    simp only [State.grant, State.grantIdleReturn, hc] at follow
    exact follow
  · exact ⟨fun h => congrArg _ (grantAtFreeing_eq_self h), fun h => congrArg _ (grantAtFreeing_eq_self h),
      fun h => congrArg _ (grantAtFreeing_eq_self h), fun h => congrArg _ (grantAtFreeing_eq_self h),
      fun h => congrArg _ (grantAtFreeing_eq_self h)⟩

theorem State.grant_pen {s : State} {p : Pen} {o : HeldOutcome} (h : (s.pen p).attempt = .holding o) :
    s.grant (.penEngine p) = State.deliver { s with notices := { s.notices with lastPen := p } } p o := by
  unfold State.grant State.grantPen
  simp only [h]

/-- Settles O34: the grant is the delivery of a PICK. -/
theorem penGrantDeliversAPick : Obligations.PenGrantDeliversAPick := by
  intro s f p key strike cycled drag due ho hseg hdrag
  obtain ⟨u, grants, accepts, follow⟩ := GrantDue.follows due (cmd := .penGrant p) rfl
  have image : (f.image key.segment).drag = drag ∧ ∀ n k, (f.image key.segment).kind ≠ .menu n k := by
    unfold Image.drag
    rcases hdrag with ⟨rfl, b, hk⟩ | ⟨rfl, hk | ⟨b, hk⟩⟩ <;> rw [hk] <;> exact ⟨rfl, nofun⟩
  rw [State.grant_pen ho, State.deliver_pick (s := { f with notices := { f.notices with lastPen := p } }) image.2] at follow
  refine ⟨_, u, grants, accepts, follow, ?_⟩
  rw [← image.1]
  exact State.delivers_pick (s := { f with notices := { f.notices with lastPen := p } }) (by omega)
    (show (f.pen p).attempt ≠ _ ∧ (f.pen p).attempt ≠ _ by rw [ho]; exact ⟨nofun, nofun⟩) strike cycled

/-- Settles O35: the grant is the delivery of a menu pick or of a region. -/
theorem penGrantDeliversMenuPickOrRegion : Obligations.PenGrantDeliversMenuPickOrRegion := by
  refine ⟨fun s f p key strike cycled n k due ho hk => ?_, fun s f p r point saturated due ho => ?_⟩
  · obtain ⟨u, grants, accepts, follow⟩ := GrantDue.follows due (cmd := .penGrant p) rfl
    rw [State.grant_pen ho, State.deliver_menu (s := { f with notices := { f.notices with lastPen := p } }) hk] at follow
    exact ⟨_, u, grants, accepts, follow, State.delivers_menu (State.segment_ne_zero (by rw [hk]; nofun)) n k cycled⟩
  · obtain ⟨u, grants, accepts, follow⟩ := GrantDue.follows due (cmd := .penGrant p) rfl
    rw [State.grant_pen ho] at follow
    refine ⟨u, grants, accepts, ?_⟩
    have delivered := State.deliverRegion_eq { f with notices := { f.notices with lastPen := p } } p r point saturated
    rw [show State.deliver _ p (.region r point saturated) = _ from delivered] at follow
    exact follow

/-- R150, R151: the Decoder's claim is served first. -/
theorem grantDue_decoder {s : State} {n : Notice} {rest : List Notice} (h : LastWordDue s n rest)
    (room : rest.length < 30) {ctrl : Word} (hc : s.decoder.state = .held ctrl) : GrantDue s .decoder (freed s rest) :=
  ⟨n, rest, h, rfl, room, ⟨ctrl, hc⟩, [], _, rfl, nofun⟩

theorem State.grant_decoder {s : State} {ctrl : Word} (h : s.decoder.state = .held ctrl) :
    s.grant .decoder = State.effectHeld { s with decoder := { s.decoder with state := .idle } } ctrl := by
  unfold State.grant State.grantDecoder
  simp only [h]

/-- Settles O36: the grant is the effect of the held order. -/
theorem decoderGrantLetsTheOrderTakeEffect : Obligations.DecoderGrantLetsTheOrderTakeEffect := by
  intro s n rest h room granted idle
  have grants {ctrl : Word} (hc : s.decoder.state = .held ctrl) : granted (idle.effectHeld ctrl) := by
    obtain ⟨u, hu⟩ := GrantDue.follows (grantDue_decoder h room hc) (cmd := .decoderGrant) rfl
    rw [State.grant_decoder (s := freed s rest) hc] at hu
    exact ⟨u, hu⟩
  refine ⟨fun subject ch ps reply hc hreply => ?_, fun arg item hc htop hitem => ?_, fun arg hc habsent => ?_⟩
  · have known : subject < 16 := by
      by_contra hlt
      obtain ⟨k, rfl⟩ := Nat.exists_eq_add_of_le (Nat.le_of_not_lt hlt)
      rw [Nat.add_comm] at hreply
      cases hreply
    rw [← effectHeld_query idle subject known ch ps reply hreply]
    exact grants hc
  · have effect := effectHeld_forceItem idle arg
    rw [State.forceItem_shown (s := idle) htop hitem] at effect
    have performed := grants hc
    rw [effect] at performed
    exact performed
  · have effect := effectHeld_forceItem idle arg
    rw [State.forceItem_absent (s := idle) habsent] at effect
    have refused := grants hc
    rw [effect] at refused
    exact refused

end Sys2Proof.Machine
end

section
/-! The channel of a notice (O37). -/

namespace Sys2Proof.Machine

/-- R154: no channel that comes before the chosen one has a level as low. -/
theorem lowestLevel_first (levels : Table Nat) (best : Nat) (cs : List Nat) :
    ∃ before after, best :: cs = before ++ lowestLevel levels best cs :: after ∧
      ∀ d ∈ before, Table.read 0 levels (lowestLevel levels best cs) < Table.read 0 levels d := by
  induction cs generalizing best with
  | nil => exact ⟨[], [], rfl, nofun⟩
  | cons c cs ih =>
    unfold lowestLevel
    split
    · next lower =>
      obtain ⟨before, after, split, higher⟩ := ih c
      have chosen_le := lowestLevel_le levels c cs c (List.mem_cons_self ..)
      refine ⟨best :: before, after, by rw [split]; rfl, fun d hd => ?_⟩
      rcases List.mem_cons.1 hd with rfl | hd
      · exact chosen_le.trans_lt lower
      · exact higher d hd
    · next notLower =>
      obtain ⟨before, after, split, higher⟩ := ih best
      cases before with
      | nil =>
        simp only [List.nil_append, List.cons.injEq] at split
        exact ⟨[], c :: after, by rw [← split.1, ← split.2]; rfl, nofun⟩
      | cons b before =>
        simp only [List.cons_append, List.cons.injEq] at split
        obtain ⟨rfl, rest⟩ := split
        have chosen_lt := higher best (List.mem_cons_self ..)
        refine ⟨best :: c :: before, after, by simpa using rest, fun d hd => ?_⟩
        rcases List.mem_cons.1 hd with rfl | hd
        · exact chosen_lt
        · rcases List.mem_cons.1 hd with rfl | hd
          · omega
          · exact higher d (List.mem_cons_of_mem _ hd)

/-- Of two elements that a list without repeats holds in this order, the first has the lower index. -/
theorem idxOf_le_of_sublist {l : List Nat} (hl : l.Nodup) {c d : Nat} (h : [c, d].Sublist l) :
    l.idxOf c ≤ l.idxOf d := by
  induction l with
  | nil => cases h
  | cons x l ih =>
    obtain ⟨hx, hl⟩ := List.nodup_cons.1 hl
    by_cases hc : x = c
    · subst hc
      rw [List.idxOf_cons_self]
      exact Nat.zero_le _
    · cases h with
      | cons _ h =>
        have hd : x ≠ d := fun heq => hx (heq ▸ h.subset (by simp))
        rw [List.idxOf_cons_ne _ hc, List.idxOf_cons_ne _ hd]
        exact Nat.succ_le_succ (ih hl h)
      | cons_cons => exact absurd rfl hc

/-- R154: the list whose order breaks a tie. -/
def tieOrder (u : NoticeUnit) : List Nat := if u.tieFirst then [0, 1, 2, 3] else u.lru

theorem mem_keptChannels {u : NoticeUnit} (h : u.lru.Perm [0, 1, 2, 3]) (route : BitVec 4) (d : Nat) :
    d ∈ keptChannels u route ↔ d ≤ 3 ∧ route.getLsbD d = true ∧ (d = 0 ∨ u.present.getLsbD d = true) := by
  have four : d ∈ tieOrder u ↔ d ≤ 3 := by
    unfold tieOrder
    split
    · simp; omega
    · rw [h.mem_iff]; simp; omega
  show d ∈ (tieOrder u).filter _ ↔ _
  rw [List.mem_filter, four]
  simp [NoticeUnit.isPresent]

/-- R154: the chosen channel comes first among those that could have been chosen. -/
theorem chooseChannel_first {u : NoticeUnit} (h : u.lru.Perm [0, 1, 2, 3]) {route : BitVec 4} {c d : Nat}
    (hc : chooseChannel u route = (c, false)) (hd : d ∈ keptChannels u route)
    (tie : u.all = true ∨ Table.read 0 u.levels d = Table.read 0 u.levels c) :
    (tieOrder u).idxOf c ≤ (tieOrder u).idxOf d := by
  have nodup : (tieOrder u).Nodup := by
    unfold tieOrder
    split
    · decide
    · exact h.nodup_iff.2 (by decide)
  have chosen : chooseChannel u route = match keptChannels u route with
      | [] => (0, true)
      | c :: cs => (if u.all then c else lowestLevel u.levels c cs, false) := rfl
  have kept : (keptChannels u route).Sublist (tieOrder u) := List.filter_sublist
  have first : ∃ before after, keptChannels u route = before ++ c :: after ∧ d ∉ before := by
    cases hk : keptChannels u route with
    | nil => rw [hk] at hd; cases hd
    | cons x xs =>
      rw [hk] at chosen
      have heq : (if u.all = true then x else lowestLevel u.levels x xs) = c := by
        rw [hc] at chosen
        exact (congrArg Prod.fst chosen).symm
      split at heq
      · exact ⟨[], xs, by rw [heq]; rfl, nofun⟩
      · next notAll =>
        obtain ⟨before, after, split, higher⟩ := lowestLevel_first u.levels x xs
        rw [heq] at split higher
        refine ⟨before, after, split, fun hmem => ?_⟩
        have := higher d hmem
        rcases tie with tie | tie
        · exact notAll tie
        · omega
  obtain ⟨before, after, split, hbefore⟩ := first
  rw [split] at hd kept
  rcases List.mem_append.1 hd with hd | hd
  · exact absurd hd hbefore
  · rcases List.mem_cons.1 hd with rfl | hd
    · exact le_rfl
    · have pair : [c, d].Sublist (c :: after) := (List.singleton_sublist.2 hd).cons_cons c
      exact idxOf_le_of_sublist nodup ((pair.trans (List.sublist_append_right ..)).trans kept)

theorem idxOf_numbers {c : Nat} (hc : c ≤ 3) : [0, 1, 2, 3].idxOf c = c := by
  interval_cases c <;> rfl

/-- Settles O37: the kept channels, the lowest level among them, and the first of those that tie. -/
theorem noticeIsRoutedAsItEnters : Obligations.NoticeIsRoutedAsItEnters := by
  intro u route pen body hlru
  refine ⟨(chooseChannel u route).1, (chooseChannel u route).2, rfl, ?_⟩
  intro Kept level
  have kept (d : Nat) : d ∈ keptChannels u route ↔ Kept d := mem_keptChannels hlru route d
  obtain ⟨hnone, heq⟩ | ⟨c, heq, hc, -, hlow⟩ := chooseChannel_cases u route
  · rw [heq]
    refine ⟨iff_of_true rfl fun d hd => ?_, fun _ => rfl, nofun⟩
    rw [← kept, hnone] at hd
    cases hd
  · rw [heq]
    refine ⟨iff_of_false Bool.false_ne_true fun hno => hno c ((kept c).1 hc), nofun, fun _ => ⟨(kept c).1 hc,
      fun hall d hd => hlow hall d ((kept d).2 hd), fun d hd tie => ?_⟩⟩
    have first := chooseChannel_first hlru heq ((kept d).2 hd) tie
    unfold tieOrder at first
    refine ⟨fun htie => ?_, fun htie => ?_⟩
    · rw [if_pos htie, idxOf_numbers ((kept c).1 hc).1, idxOf_numbers hd.1] at first
      exact first
    · rw [htie] at first
      exact first

end Sys2Proof.Machine
end

section
/-! The words of a notice (O38). A word is compared with its fields through the number that has each value, reduced to
its field's length, in its field. -/

namespace Sys2Proof.Machine

open Sys2Proof.Stated

/-! ### Numbers made of fields -/

/-- Each value reduced to the length of its field. -/
def clipped (fs : Fields) : Fields := fs.map fun f => (f.1, f.2.1, f.2.2 % 2 ^ f.2.1)

theorem clipped_of_fit {fs : Fields} (h : Fit fs) : clipped fs = fs := by
  induction fs with
  | nil => rfl
  | cons f fs ih =>
    obtain ⟨hlt, hfit⟩ := h
    show (f.1, f.2.1, f.2.2 % 2 ^ f.2.1) :: clipped fs = f :: fs
    rw [ih hfit, Nat.mod_eq_of_lt hlt]

/-- The number that the fields make, each value reduced to its field. -/
def packed (fs : Fields) : Nat := total (clipped fs)

@[simp] theorem packed_nil : packed [] = 0 := rfl

@[simp] theorem packed_cons (lo len v : Nat) (fs : Fields) : packed ((lo, len, v) :: fs) = put v lo len + packed fs := rfl

theorem packed_append (fs gs : Fields) : packed (fs ++ gs) = packed fs + packed gs := by
  induction fs with
  | nil => simp
  | cons f fs ih =>
    obtain ⟨lo, len, v⟩ := f
    rw [List.cons_append, packed_cons, packed_cons, ih, Nat.add_assoc]

theorem holds_packed (fs : Fields) : Holds (word (packed fs)) fs := fun hfit => by
  unfold packed
  rw [clipped_of_fit hfit]
  rfl

theorem holds_of_eq {n : Nat} {fs : Fields} (h : n = packed fs) : Holds (word n) fs := h ▸ holds_packed fs

@[simp] theorem put_toNat (b : Bool) (lo : Nat) : put b.toNat lo 1 = bit b lo := by cases b <;> simp [put, bit]

@[simp] theorem put_zero (lo len : Nat) : put 0 lo len = 0 := by simp [put]

@[simp] theorem put_one (lo : Nat) : put 1 lo 1 = bit true lo := by simp [put, bit]

@[simp] theorem bit_false (lo : Nat) : bit false lo = 0 := rfl

theorem put_of_lt {v len : Nat} (h : v < 2 ^ len) (lo : Nat) : put v lo len = v * 2 ^ lo := by
  unfold put
  rw [Nat.mod_eq_of_lt h]

theorem put_bitVec {len : Nat} (v : BitVec len) (lo : Nat) : put v.toNat lo len = v.toNat * 2 ^ lo := put_of_lt v.isLt lo

theorem put_decide (p : Prop) [Decidable p] (lo : Nat) : put (if p then 1 else 0) lo 1 = bit (decide p) lo := by
  by_cases h : p <;> simp [h, put, bit]

/-- The fields stand one below the other, the first below bit `n`. -/
def Below : Nat → Fields → Prop
  | _, [] => True
  | n, (lo, len, _) :: rest => lo + len ≤ n ∧ Below lo rest

theorem packed_lt {n : Nat} {fs : Fields} (h : Below n fs) : packed fs < 2 ^ n := by
  induction fs generalizing n with
  | nil => exact Nat.two_pow_pos n
  | cons f fs ih =>
    obtain ⟨lo, len, v⟩ := f
    obtain ⟨hn, hrest⟩ := h
    have rest := ih hrest
    have top : put v lo len + 2 ^ lo ≤ 2 ^ (lo + len) := by
      have hv := Nat.mod_lt v (Nat.two_pow_pos len)
      calc v % 2 ^ len * 2 ^ lo + 2 ^ lo = (v % 2 ^ len + 1) * 2 ^ lo := by ring
        _ ≤ 2 ^ len * 2 ^ lo := Nat.mul_le_mul_right _ hv
        _ = 2 ^ (lo + len) := by rw [Nat.pow_add, Nat.mul_comm]
    have bound := Nat.pow_le_pow_right (show 1 ≤ 2 by decide) hn
    rw [packed_cons]
    omega

/-! ### Codes -/

theorem displayCode_eq (d : Display) : displayCode d = d.code := by cases d <;> rfl
theorem missCode_eq (r : MissReason) : missCode r = r.code := by cases r <;> rfl
theorem resultCode_eq (r : MenuResult) : resultCode r = r.code := by cases r <;> rfl
theorem outcomeCode_eq (o : LastOutcome) : outcomeCode o = o.code := by
  cases o with
  | miss r => exact congrArg (8 + ·) (missCode_eq r)
  | _ => rfl
theorem phaseCode_eq (p : TestPhase) : phaseCode p = p.code := by cases p <;> rfl
theorem trackCode_eq (t : TrackState) : trackCode t = t.code := by cases t <;> rfl
theorem actionCode_eq (a : Action) : actionCode a = a.code := by cases a <;> rfl
theorem replySubject_eq (r : Reply) : replySubject r = r.subject := by
  cases r with
  | pen p _ => cases p <;> rfl
  | track p _ => cases p <;> rfl
  | _ => rfl
theorem put_kindCode (k : FaultKind) : put (kindCode k) 0 3 = faultCode k := by cases k <;> rfl
theorem put_originCode (o : TrackOrigin) (lo : Nat) : put (originCode o) lo 1 = bit o.isDrag lo := by
  cases o <;> simp [originCode, put, bit, TrackOrigin.isDrag]
theorem put_penCode (p : Pen) (lo : Nat) : put (penCode p) lo 1 = bit (penIsB p) lo := by
  cases p <;> simp [penCode, put, bit, penIsB]
theorem stateCode_eq (m : Mode) (a : AttemptState) : stateCode m a = penStateCode m a := by
  cases m <;> cases a <;> rfl

/-! ### Headers -/

theorem Reply.header_eq (r : Reply) : r.header = packed (replyFields r) := by
  cases r with
  | segment n img pending =>
    cases pending with
    | none => simp [Reply.header, replyFields]
    | some d => simp [Reply.header, replyFields, displayCode_eq]; omega
  | region r record counts => simp [Reply.header, replyFields]
  | page n valid items => simp [Reply.header, replyFields]; omega
  | item n k found => simp [Reply.header, replyFields]; omega
  | stack pages owner counter limit claim =>
    rcases owner with _ | _ | _ <;> simp [Reply.header, replyFields, ownerCode, penCode] <;> omega
  | pen p e => simp [Reply.header, replyFields, PenStatus.header, outcomeCode_eq, stateCode_eq, put_decide]; omega
  | track p u => simp [Reply.header, replyFields, TrackStatus.header, trackCode_eq, put_originCode]; omega
  | channels u => simp [Reply.header, replyFields, ChannelStatus.header, put_penCode, put_bitVec]; omega
  | faults setting first stalled lost sticky =>
    have code (k : FaultKind) : put (faultCode k) 8 3 = put (kindCode k) 8 3 := by cases k <;> rfl
    cases first <;> simp [Reply.header, replyFields, put_bitVec, code] <;> omega
  | part cursor endFlag keep => simp [Reply.header, replyFields, Config.partCode]; omega

theorem NoticeBody.header_eq (b : NoticeBody) : b.header = packed (contentFields b) := by
  cases b with
  | pick key cls strike cycled marked drag => simp [NoticeBody.header, contentFields]; omega
  | region r point saturated => simp [NoticeBody.header, contentFields]
  | menu page item result value depth top cycled marked forced =>
    simp [NoticeBody.header, contentFields, resultCode_eq]; omega
  | miss reason frames candidates crowded => simp [NoticeBody.header, contentFields, missCode_eq]; omega
  | position c => simp [NoticeBody.header, contentFields, put_originCode]
  | track c => simp [NoticeBody.header, contentFields, put_originCode, put_decide]
  | idleReturn root top depth => simp [NoticeBody.header, contentFields]; omega
  | fault kind context first lost sticky =>
    simp [NoticeBody.header, contentFields, put_kindCode, put_bitVec]; omega
  | reply r => simp [NoticeBody.header, contentFields, Reply.header_eq, replySubject_eq, put_decide]

theorem below_replyFields (r : Reply) : Below 20 (replyFields r) := by
  cases r <;> simp [replyFields, Below]

theorem NoticeBody.header_lt (b : NoticeBody) : b.header < 2 ^ 21 := by
  rw [NoticeBody.header_eq]
  refine packed_lt ?_
  cases b with
  | reply r => exact ⟨le_rfl, below_replyFields r⟩
  | _ => simp [contentFields, Below]

theorem NoticeBody.kindCode_eq (b : NoticeBody) : b.kindCode = noticeCode b := by
  cases b with
  | reply r => simp only [NoticeBody.kindCode, noticeCode, replySubject_eq]
  | _ => rfl

theorem noticeCode_lt (b : NoticeBody) : noticeCode b < 16 := by
  cases b <;> simp only [noticeCode] <;> omega

theorem NoticeBody.payload_length_le (b : NoticeBody) : b.payload.length ≤ 3 := by
  cases b with
  | reply r =>
    cases r with
    | item n k found => cases found <;> exact Nat.le_of_ble_eq_true rfl
    | _ => exact Nat.le_of_ble_eq_true rfl
  | _ => exact Nat.le_of_ble_eq_true rfl

/-- R181: the code of the header's pen. -/
def penField (p : Option Pen) : Nat :=
  match p with
  | some .a => 0
  | some .b => 1
  | none => 3

theorem headerPen_eq (p : Option Pen) : headerPen p = penField p ∧ penField p < 4 := by
  rcases p with _ | _ | _ <;> exact ⟨rfl, by decide⟩

/-- R181: the number of a header word. -/
def Notice.headerNumber (n : Notice) : Nat :=
  noticeCode n.body * 2 ^ 28 + n.channel * 2 ^ 26 + penField n.pen * 2 ^ 24 + n.body.payload.length * 2 ^ 22
    + n.rerouted.toNat * 2 ^ 21 + n.body.header

theorem Notice.headerWord_eq {n : Notice} (h : n.channel ≤ 3) : n.headerWord = word n.headerNumber := by
  unfold Notice.headerWord Notice.headerNumber
  have kind := noticeCode_lt n.body
  have length := n.body.payload_length_le
  have rerouted : bit n.rerouted 21 = n.rerouted.toNat * 2 ^ 21 := by cases n.rerouted <;> rfl
  rw [NoticeBody.kindCode_eq, (headerPen_eq n.pen).1, put_of_lt (by omega), put_of_lt (by omega),
    put_of_lt (headerPen_eq n.pen).2, put_of_lt (by omega), rerouted]

theorem field_word {n : Nat} (h : n < 2 ^ 32) (lo len : Nat) : field (word n) lo len = n / 2 ^ lo % 2 ^ len := by
  unfold field word
  rw [BitVec.extractLsb'_toNat, BitVec.toNat_ofNat, Nat.mod_eq_of_lt h, Nat.shiftRight_eq_div_pow]

theorem getLsbD_word {n : Nat} (h : n < 2 ^ 32) (b : Nat) : (word n).getLsbD b = decide (n / 2 ^ b % 2 = 1) := by
  unfold word
  rw [BitVec.getLsbD, BitVec.toNat_ofNat, Nat.mod_eq_of_lt h, Nat.testBit_eq_decide_div_mod_eq]

/-- R181: the fields of the header that every notice has. -/
theorem Notice.headerWord_fields {n : Notice} (h : n.channel ≤ 3) :
    field n.headerWord 28 4 = noticeCode n.body ∧ field n.headerWord 26 2 = n.channel ∧
      field n.headerWord 24 2 = penField n.pen ∧ field n.headerWord 22 2 = n.body.payload.length ∧
      n.headerWord.getLsbD 21 = n.rerouted := by
  have kind := noticeCode_lt n.body
  have length := n.body.payload_length_le
  have pen := (headerPen_eq n.pen).2
  have header := n.body.header_lt
  have rerouted : n.rerouted.toNat < 2 := n.rerouted.toNat_lt
  have number : n.headerNumber < 2 ^ 32 := by unfold Notice.headerNumber; omega
  have bit21 : (n.headerNumber / 2 ^ 21 % 2 = 1) = (n.rerouted.toNat = 1) := by
    unfold Notice.headerNumber
    refine propext ⟨fun hb => ?_, fun hb => ?_⟩ <;> omega
  rw [Notice.headerWord_eq h, field_word number, field_word number, field_word number, field_word number,
    getLsbD_word number]
  simp only [bit21]
  unfold Notice.headerNumber
  refine ⟨by omega, by omega, by omega, by omega, by cases n.rerouted <;> rfl⟩

/-! ### Payloads -/

theorem holds_point (p : Point) : Holds (pointWord p) (pointFields p) :=
  holds_of_eq (by simp [pointFields])

theorem holds_image (img : Image) : List.Forall₂ Holds [img.word1, img.word2] (imageFields img) := by
  refine .cons (holds_of_eq ?_) (.cons ?_ .nil)
  · cases img.kind <;> simp [SegKind.code, displayCode_eq, put_decide, put_bitVec] <;> omega
  · unfold Image.word2
    cases img.kind with
    | unused => exact holds_of_eq rfl
    | menu page item => exact holds_of_eq (by simp)
    | drawing drag bound => cases bound with
      | none => exact holds_of_eq (by simp [boundBits])
      | some b => exact holds_of_eq (by simp [boundBits]; omega)

theorem holds_region (r : RegionRecord) :
    Holds r.word [(9, 1, r.enabled.toNat), (8, 1, if r.rule = .nonzero then 1 else 0), (4, 4, r.priority),
      (0, 4, r.route.toNat)] :=
  holds_of_eq (by simp [put_decide, put_bitVec]; omega)

theorem put_shift (v a lo len : Nat) : put v (lo + a) len = put v a len * 2 ^ lo := by
  unfold put
  rw [Nat.pow_add]
  ring

/-- R181: the counter in two's complement. -/
theorem ofInt_toNat (i : Int) : (BitVec.ofInt 5 i).toNat = (i % 32).toNat ∧ (i % 32).toNat < 2 ^ 5 := by
  refine ⟨BitVec.toNat_ofInt .., ?_⟩
  omega

theorem packed_countFields (c : RegionCount) (lo : Nat) : packed (countFields c lo) = c.bits * 2 ^ lo := by
  obtain ⟨counter, bound⟩ := ofInt_toNat c.counter
  unfold countFields RegionCount.bits
  rw [packed_cons, packed_cons, packed_cons, packed_nil, put_shift, put_shift, put_toNat, put_of_lt bound, counter,
    phaseCode_eq]
  ring

/-- The number whose digits of `w` bits are the values, the first the lowest. -/
def digits (w : Nat) : List Nat → Nat
  | [] => 0
  | n :: rest => put n 0 w + 2 ^ w * digits w rest

theorem packed_digits (w a : Nat) (l : List Nat) : packed (l.mapIdx fun i n => (a + w * i, w, n)) = digits w l * 2 ^ a := by
  induction l generalizing a with
  | nil => simp [digits]
  | cons n l ih =>
    have next : (l.mapIdx fun i n => (a + w * (i + 1), w, n)) = l.mapIdx fun i n => (a + w + w * i, w, n) := by
      congr 1
      funext i n
      rw [Nat.mul_add, Nat.mul_one, Nat.add_assoc, Nat.add_comm w]
    have first := put_shift n 0 a w
    rw [Nat.add_zero] at first
    rw [List.mapIdx_cons, next, packed_cons, ih, Nat.mul_zero, Nat.add_zero, first, digits, Nat.pow_add]
    ring

theorem stackBits_eq (l : List Nat) : stackBits l = digits 5 l := by
  induction l with
  | nil => rfl
  | cons n l ih => rw [stackBits, digits, ih]; rfl

theorem pairsOfBits_eq (l : List Nat) : pairsOfBits l = digits 2 l := by
  induction l with
  | nil => rfl
  | cons n l ih => rw [pairsOfBits, digits, ih]; rfl

theorem nibbles_eq (l : List Nat) : nibbles l = digits 4 l := by
  induction l with
  | nil => rfl
  | cons n l ih => rw [nibbles, digits, ih]; rfl

/-- R181: the items of a PAGE reply, from bit 4k upward. -/
theorem packed_items (items : List Item) (k : Nat) :
    packed (items.mapIdx fun j i => [(4 * (j + k) + 2, 1, i.toggle.toNat), (4 * (j + k), 2, actionCode i.action)]).flatten =
      itemNibbles items * 2 ^ (4 * k) := by
  induction items generalizing k with
  | nil => simp [itemNibbles]
  | cons i items ih =>
    have next : (items.mapIdx fun j i => [(4 * (j + 1 + k) + 2, 1, i.toggle.toNat),
          (4 * (j + 1 + k), 2, actionCode i.action)]) =
        items.mapIdx fun j i => [(4 * (j + (k + 1)) + 2, 1, i.toggle.toNat), (4 * (j + (k + 1)), 2, actionCode i.action)] := by
      congr 1
      funext j i
      rw [Nat.add_assoc, Nat.add_comm 1]
    have toggle := put_shift i.toggle.toNat 2 (4 * k) 1
    have action := put_shift (actionCode i.action) 0 (4 * k) 2
    rw [Nat.add_zero] at action
    rw [List.mapIdx_cons, List.flatten_cons, next, packed_append, ih, Nat.zero_add, packed_cons, packed_cons, packed_nil,
      toggle, action, put_toNat, actionCode_eq, itemNibbles, show 4 * (k + 1) = 4 + 4 * k by ring, Nat.pow_add]
    ring

theorem packed_pageFields (items : List Item) : packed (pageFields items) = itemNibbles items := by
  simpa [pageFields] using packed_items items 0

theorem holds_item (i : Item) : Holds i.word (itemFields i) := by
  have after (a : AfterAction) :
      put (if a = .stay then 0 else if a = .ascend then 1 else 2) 27 2 = put a.code 27 2 := by cases a <;> rfl
  refine holds_of_eq ?_
  unfold itemFields
  rw [packed_append]
  cases i.action <;> simp [actionCode, Action.code, Action.bits, after] <;> omega

/-- R181: the payload of every REPLY but the PEN reply. -/
theorem replyPayload_holds (r : Reply) (h : ∀ p e, r ≠ .pen p e) : List.Forall₂ Holds r.payload (replyPayload r) := by
  cases r with
  | segment n img pending => exact holds_image img
  | region r record counts =>
    refine .cons (holds_region record) (.cons (holds_of_eq ?_) .nil)
    rw [packed_append, packed_countFields, packed_countFields, Nat.pow_zero, Nat.mul_one]
  | page n valid items =>
    exact .cons (holds_of_eq (packed_pageFields _).symm) (.cons (holds_of_eq (packed_pageFields _).symm) .nil)
  | item n k found => cases found with
    | none => exact .cons (holds_of_eq rfl) .nil
    | some i => exact .cons (holds_item i) .nil
  | stack pages owner counter limit claim =>
    refine .cons (holds_of_eq ?_) (.cons (holds_of_eq ?_) .nil)
    · have digits := packed_digits 5 0 pages
      simp only [Nat.zero_add, Nat.pow_zero, Nat.mul_one] at digits
      rw [digits, stackBits_eq]
    · simp
  | pen p e => exact absurd rfl (h p e)
  | track p u =>
    refine .cons (holds_point _) (.cons (holds_point _) (.cons (holds_of_eq ?_) .nil))
    have position (c : Option Bool) : put ((c.map fun final => 1 + final.toNat).getD 0) 2 2 = positionClaimCode c * 4 := by
      rcases c with _ | _ | _ <;> rfl
    have track (c : Option TrackEvent) :
        put ((c.map fun e => if e = .lost then 2 else 1).getD 0) 0 2 = trackClaimCode c := by
      rcases c with _ | _ | _ <;> rfl
    rw [packed_cons, packed_cons, packed_nil, position, track, Nat.add_zero]
  | channels u =>
    refine .cons (holds_of_eq ?_) .nil
    have lru := packed_digits 2 16 u.lru
    have levels := packed_digits 4 0 u.levels
    simp only [Nat.zero_add, Nat.pow_zero, Nat.mul_one] at levels
    rw [packed_append, packed_append, lru, levels, pairsOfBits_eq, nibbles_eq]
    simp [ClaimsWaiting.bits]
    omega
  | faults setting first stalled lost sticky =>
    refine .cons ?_ .nil
    cases first with
    | none => exact fun _ => rfl
    | some f => exact fun _ => by simp [total]
  | part cursor endFlag keep => exact .cons (holds_of_eq rfl) (.cons (holds_of_eq rfl) .nil)

theorem payload_holds (b : NoticeBody) (h : ∀ p e, b ≠ .reply (.pen p e)) :
    List.Forall₂ Holds b.payload (payloadFields b) := by
  cases b with
  | pick key cls strike cycled marked drag =>
    refine .cons (holds_of_eq ?_) (.cons (holds_point strike) .nil)
    cases key.element <;> simp [Element.bits]
  | region r point saturated => exact .cons (holds_point point) .nil
  | menu page item result value depth top cycled marked forced =>
    refine .cons (holds_of_eq ?_) .nil
    split
    · simp
    · simp; omega
  | miss reason frames candidates crowded => exact .nil
  | position c => exact .cons (holds_point c.point) .nil
  | track c => exact .cons (holds_point c.point) .nil
  | idleReturn root top depth => exact .nil
  | fault kind context first lost sticky => exact .cons (fun _ => by simp [total]) .nil
  | reply r => exact replyPayload_holds r fun p e hr => h p e (congrArg _ hr)

/-! ### The reply to QUERY PEN -/

theorem Key.bits_eq {k : Key} (hs : k.segment ≤ 1023) (hn : ∀ n, k.element = .ordinal n → n ≤ 4095) :
    k.bits = keyNumber k ∧ k.bits < 2 ^ 23 := by
  unfold Key.bits keyNumber
  cases hk : k.element with
  | ordinal n =>
    have := hn n hk
    simp only
    rw [put_of_lt (by omega), put_of_lt (by omega)]
    constructor <;> omega
  | whole =>
    simp only [bit, if_true]
    rw [put_of_lt (by omega)]
    constructor <;> omega

/-- R182: the key slots, oldest first, from the highest of `n` slots down. -/
theorem exclusionBits_eq (n : Nat) (keys : List Key) (hn : keys.length ≤ n)
    (hk : ∀ k ∈ keys, k.segment ≤ 1023 ∧ ∀ m, k.element = .ordinal m → m ≤ 4095) :
    exclusionBits n keys = (keys.mapIdx fun i k => keyNumber k * 2 ^ (23 * (n - 1 - i))).sum ∧
      exclusionBits n keys < 2 ^ (23 * n) := by
  induction n generalizing keys with
  | zero =>
    rw [List.eq_nil_of_length_eq_zero (Nat.le_zero.1 hn)]
    exact ⟨rfl, by decide⟩
  | succ n ih => cases keys with
    | nil => exact ⟨rfl, Nat.two_pow_pos _⟩
    | cons k keys =>
      obtain ⟨⟨hs, he⟩, hrest⟩ := List.forall_mem_cons.1 hk
      obtain ⟨bits, bound⟩ := Key.bits_eq hs he
      obtain ⟨sum, lt⟩ := ih keys (Nat.le_of_succ_le_succ hn) hrest
      refine ⟨?_, ?_⟩
      · rw [exclusionBits, sum, bits, List.mapIdx_cons, List.sum_cons]
        simp only [Nat.add_sub_cancel, Nat.sub_zero]
        congr 3
        funext i k
        congr 3
        omega
      · rw [exclusionBits]
        have top : k.bits * 2 ^ (23 * n) + 2 ^ (23 * n) ≤ 2 ^ (23 * (n + 1)) := by
          calc k.bits * 2 ^ (23 * n) + 2 ^ (23 * n) = (k.bits + 1) * 2 ^ (23 * n) := by ring
            _ ≤ 2 ^ 23 * 2 ^ (23 * n) := Nat.mul_le_mul_right _ bound
            _ = 2 ^ (23 * (n + 1)) := by rw [← Nat.pow_add]; ring_nf
        omega

/-- R182: the three payload words of the PEN reply, as one number. -/
theorem threeWords {n : Nat} (h : n < 2 ^ 96) :
    (word (n / 2 ^ 64)).toNat * 2 ^ 64 + (word (n / 2 ^ 32)).toNat * 2 ^ 32 + (word n).toNat = n := by
  unfold word
  simp only [BitVec.toNat_ofNat]
  omega

/-- Settles O38: each word is the number of its fields. -/
theorem headerWordHoldsItsFields : Obligations.HeaderWordHoldsItsFields := by
  refine ⟨fun n hn => ?_, fun n hn => ⟨?_, fun hpen => ?_⟩, fun p e hc hl hk => ?_, fun s => ?_⟩
  · obtain ⟨kind, channel, pen, length, rerouted⟩ := Notice.headerWord_fields hn
    have payload := n.body.payload_length_le
    have words : n.length = n.body.payload.length + 1 := rfl
    exact ⟨rfl, by omega, by omega, kind, channel, pen, length, rerouted⟩
  · unfold Notice.headerWord
    refine holds_of_eq ?_
    rw [packed_append, ← NoticeBody.header_eq, NoticeBody.kindCode_eq]
    rcases n.pen with _ | _ | _ <;> simp only [packed_cons, packed_nil, put_toNat, headerPen] <;> omega
  · exact payload_holds n.body hpen
  · refine ⟨_, _, _, rfl, ?_⟩
    obtain ⟨sum, lt⟩ := exclusionBits_eq 4 e.exclusions hl hk
    have number : e.bits = e.candidates * 2 ^ 92 + exclusionBits 4 e.exclusions := by
      unfold PenStatus.bits
      rw [put_of_lt (by omega)]
    rw [threeWords (by omega), number, sum]
  · unfold State.presentedWord
    exact ⟨fun hq => by rw [hq], fun n rest hq => by rw [hq]⟩

end Sys2Proof.Machine
end

section
/-! The arrival of a FRAME, and the passages (O8 to O11). -/

namespace Sys2Proof.Machine

open Sys2Proof.Stated

/-! ### The dots of a cross (R95) -/

theorem dotPoint_east {c : Point} (hc : c.Law) (d k : Nat) : dotPoint c d .e k = ⟨min 4095 (c.x + k * d), c.y⟩ := by
  have east := clampCoord_add c.x (k * d)
  have level := clampCoord_add c.y 0
  have inside : c.y ≤ 4095 := hc.2
  simp only [dotPoint, Point.displaced]
  push_cast at east level
  rw [east, level]
  simp [inside]

theorem dotPoint_west {c : Point} (hc : c.Law) (d k : Nat) : dotPoint c d .w k = ⟨c.x - k * d, c.y⟩ := by
  have west := clampCoord_sub hc.1 (k * d)
  have level := clampCoord_sub hc.2 0
  simp only [dotPoint, Point.displaced, ← sub_eq_add_neg]
  push_cast at west level
  rw [west]
  simpa using level

theorem dotPoint_north {c : Point} (hc : c.Law) (d k : Nat) : dotPoint c d .n k = ⟨c.x, min 4095 (c.y + k * d)⟩ := by
  have north := clampCoord_add c.y (k * d)
  have level := clampCoord_sub hc.1 0
  simp only [dotPoint, Point.displaced]
  push_cast at north level
  rw [north]
  simpa using level

theorem dotPoint_south {c : Point} (hc : c.Law) (d k : Nat) : dotPoint c d .s k = ⟨c.x, c.y - k * d⟩ := by
  have south := clampCoord_sub hc.2 (k * d)
  have level := clampCoord_sub hc.1 0
  simp only [dotPoint, Point.displaced, ← sub_eq_add_neg]
  push_cast at south level
  rw [south]
  simpa using level

theorem Tracker.active_eq_not_off (t : Tracker) : t.active = !decide (t.state = .off) := by
  unfold Tracker.active
  cases t.state <;> rfl

theorem crossDots_eq (p : Pen) {t : Tracker} (h : t.position.Law) :
    crossDots p t = if t.state = .off then [] else
      ([1, 2, 3, 4].map fun k => ⟨p, .e, k, ⟨min 4095 (t.position.x + k * t.pitch), t.position.y⟩⟩) ++
      ([1, 2, 3, 4].map fun k => ⟨p, .w, k, ⟨t.position.x - k * t.pitch, t.position.y⟩⟩) ++
      ([1, 2, 3, 4].map fun k => ⟨p, .n, k, ⟨t.position.x, min 4095 (t.position.y + k * t.pitch)⟩⟩) ++
      ([1, 2, 3, 4].map fun k => ⟨p, .s, k, ⟨t.position.x, t.position.y - k * t.pitch⟩⟩) := by
  simp only [crossDots, armDots, dotPoint_east h, dotPoint_west h, dotPoint_north h, dotPoint_south h,
    Tracker.active_eq_not_off, Bool.not_eq_true', decide_eq_false_iff_not, ite_not]

theorem Tracker.crossFixed_eq (t : Tracker) :
    t.crossFixed = if t.state = .off then t else { t with stale := false } := by
  unfold Tracker.crossFixed
  simp only [Tracker.active_eq_not_off, Bool.not_eq_true', decide_eq_false_iff_not, ite_not]

/-- Settles O8: a FRAME is held, and each active tracker's cross is fixed. -/
theorem frameArrivalFixesTheCrosses : Obligations.FrameArrivalFixesTheCrosses := by
  intro s w hears hk law dots
  refine congrArg _ (((arrive_idle hears w).trans (takeWord_frame s hk)).trans ?_)
  have crossA : crossDots .a (s.hold w).trackers.a = dots .a s.trackers.a := crossDots_eq .a (law .a)
  have crossB : crossDots .b (s.hold w).trackers.b = dots .b s.trackers.b := crossDots_eq .b (law .b)
  unfold State.fixCrosses
  rw [Tracker.crossFixed_eq, Tracker.crossFixed_eq, crossA, crossB]
  rfl

/-! ### Passages that draw nothing (R3, R4, R6, R9, R10) -/

theorem State.passHeld_full {s : State} (h : 8 ≤ s.beam.flight.length) (k : WordKind) (pass : Word → State) :
    s.passHeld k pass = s := by
  have full : s.flightHasRoom = false := decide_eq_false (Nat.not_lt.2 h)
  unfold State.passHeld
  rw [full]
  cases s.link.held with
  | none => rfl
  | some w => exact if_neg fun both => Bool.noConfusion both.2

theorem State.passCrossDot_cons {s : State} {d : CrossDot} {rest : List CrossDot} (hd : s.injection = d :: rest)
    (room : s.beam.flight.length < 8) :
    s.passCrossDot =
      { s with
        injection := rest
        link := { s.link with downstream := some (crossDotWord d.point) }
        beam := { s.beam with position := d.point, flight := s.beam.flight ++ [d.entry] } } := by
  have hasRoom : s.flightHasRoom = true := decide_eq_true room
  unfold State.passCrossDot
  rw [hd]
  exact if_pos hasRoom

theorem State.passCrossDot_full {s : State} (h : 8 ≤ s.beam.flight.length) : s.passCrossDot = s := by
  have full : s.flightHasRoom = false := decide_eq_false (Nat.not_lt.2 h)
  unfold State.passCrossDot
  rw [full]
  cases s.injection <;> rfl

theorem exec_frame_waits {s : State} (h : s.injection ≠ []) (order : List PassageBlock) :
    exec (.frame order) s = .next s := if_neg h

theorem exec_frame {s : State} (h : s.injection = []) (order : List PassageBlock) :
    exec (.frame order) s = .next (s.passHeld .frame (s.passFrame order)) := if_pos h

/-- Settles O9: each dark order appends its entry, and every order waits while the Flight List is full. -/
theorem undrawnOrdersPassOrWait : Obligations.UndrawnOrdersPassOrWait := by
  refine ⟨fun s w => ⟨fun h => ?move, fun h => ?seg, fun h => ?pass, fun d rest hd room => ?cross⟩,
    fun s w h => ?reserved, fun s order => ⟨fun full c hc => ?full, fun h => exec_frame_waits h order⟩⟩
  case move => exact congrArg _ (h.passHeld s.passMove)
  case seg => exact congrArg _ (h.passHeld s.passSeg)
  case pass => exact congrArg _ (h.passHeld s.passPass)
  case cross => exact congrArg _ (State.passCrossDot_cons hd room)
  case reserved => exact congrArg _ (h.passHeld s.passReserved)
  case full =>
    simp only [List.mem_cons, List.not_mem_nil, or_false] at hc
    rcases hc with rfl | rfl | rfl | rfl | rfl | rfl | rfl | rfl | rfl | rfl
    case inr.inr.inr.inr.inr.inr.inl =>
      by_cases cross : s.injection = []
      · rw [exec_frame cross, State.passHeld_full full]
      · exact exec_frame_waits cross order
    case inr.inr.inr.inr.inr.inr.inr.inr.inr => exact congrArg _ (State.passCrossDot_full full)
    all_goals exact congrArg _ (State.passHeld_full full _ _)

/-! ### Drawn orders (R6 to R9, R38) -/

theorem State.keyElement_eq_drawnElement (s : State) :
    s.keyElement s.beam.segment s.beam.element = drawnElement s := by
  unfold State.keyElement drawnElement
  cases (s.image s.beam.segment).kind <;> simp

theorem State.passDrawn_eq_afterDrawn (s : State) (kind : EntryKind) (w : Word) (lit : Bool) (p0 p1 : Point) :
    s.passDrawn kind w lit p0 p1 = afterDrawn s kind w lit p0 p1 := by
  simp only [State.passDrawn, State.drawnEntry, s.keyElement_eq_drawnElement]
  rfl

theorem State.passLine_eq (s : State) (w : Word) :
    s.passLine w = (afterDrawn s .line w true s.beam.position (wordPoint w)).countBoundary s.beam.segment
      s.beam.position (wordPoint w) := by
  unfold State.passLine
  rw [s.passDrawn_eq_afterDrawn]
  rfl

theorem State.passStep_eq (s : State) (w : Word) :
    s.passStep w = (afterDrawn s .step w (w.getLsbD 27) s.beam.position (Stated.stepEnd s w)).countBoundary
      s.beam.segment s.beam.position (Stated.stepEnd s w) := by
  unfold State.passStep
  rw [s.passDrawn_eq_afterDrawn, stepEnd_eq]
  rfl

theorem RegionTest.count_rests {t : RegionTest} (h : t.phase ≠ .counting) (b : Bound) (p0 p1 : Point) :
    t.count b p0 p1 = t := if_neg h

/-- R115: a boundary is counted by the tests that may be COUNTING. -/
theorem State.countBoundary_rests {s : State} (h : NoTestCounts s) (seg : Nat) (p0 p1 : Point) :
    s.countBoundary seg p0 p1 = s := by
  unfold State.countBoundary
  split
  · rfl
  · next b _ =>
    have restsA : s.regions.tests.a.count b p0 p1 = s.regions.tests.a := RegionTest.count_rests (h .a) ..
    have restsB : s.regions.tests.b.count b p0 p1 = s.regions.tests.b := RegionTest.count_rests (h .b) ..
    rw [restsA, restsB]

theorem withIntensity_getLsbD (w : Word) (i b : Nat) (hb : b < 32) :
    (withIntensity w i).getLsbD b =
      if 24 ≤ b ∧ b ≤ 26 then i.testBit (b - 24) else w.getLsbD b := by
  have mask : (0x07000000#32).getLsbD b = decide (24 ≤ b ∧ b ≤ 26) := by
    have all : ∀ n : Fin 32, (0x07000000#32).getLsbD n = decide (24 ≤ n.1 ∧ n.1 ≤ 26) := by decide
    exact all ⟨b, hb⟩
  have bits : (i % 2 ^ 3).testBit (b - 24) = (decide (b - 24 < 3) && i.testBit (b - 24)) := Nat.testBit_mod_two_pow ..
  unfold withIntensity
  rw [BitVec.getLsbD_or, BitVec.getLsbD_and, BitVec.getLsbD_not, mask, BitVec.getLsbD_shiftLeft, BitVec.getLsbD_ofNat,
    show (8 : Nat) = 2 ^ 3 from rfl, bits]
  by_cases low : b < 24
  · have outside : ¬ (24 ≤ b ∧ b ≤ 26) := by omega
    simp [hb, low, outside]
  · by_cases high : b ≤ 26
    · have inside : 24 ≤ b := by omega
      have near : b - 24 < 3 := by omega
      have word : b - 24 < 32 := by omega
      simp [hb, low, high, inside, near, word]
    · have far : ¬ b - 24 < 3 := by omega
      simp [hb, low, high, far]

theorem field_withIntensity (w : Word) {i : Nat} (h : i ≤ 7) : field (withIntensity w i) 24 3 = i := by
  unfold field
  refine Nat.eq_of_testBit_eq fun k => ?_
  rw [← BitVec.getLsbD, BitVec.getLsbD_extractLsb']
  by_cases near : k < 3
  · rw [withIntensity_getLsbD w i _ (by omega), if_pos (by omega), Nat.add_sub_cancel_left]
    simp [near]
  · have below : i < 2 ^ k := lt_of_lt_of_le (by omega : i < 2 ^ 3) (Nat.pow_le_pow_right (by omega) (by omega))
    simp [near, Nat.testBit_lt_two_pow below]

/-- Settles O10: the four drawing orders pass as R6 to R9 say, and only the intensity field is rewritten. -/
theorem drawnOrdersPassWithOneFieldRewritten : Obligations.DrawnOrdersPassWithOneFieldRewritten := by
  refine ⟨fun s w _ => ⟨fun h => ?dot, fun h => ?glyph, fun h rests => ?line, fun h rests => ?step⟩,
    fun w i hi => ⟨field_withIntensity w hi, fun b hb outside => ?bits⟩⟩
  case dot => exact h.exec_dot.trans (congrArg _ (s.passDrawn_eq_afterDrawn ..))
  case glyph =>
    rw [← glyphEnd_eq]
    exact h.exec_glyph.trans (congrArg _ (s.passDrawn_eq_afterDrawn ..))
  case line =>
    rw [h.exec_line, s.passLine_eq]
    exact congrArg _ (State.countBoundary_rests (s := afterDrawn ..) rests ..)
  case step =>
    rw [h.exec_step, s.passStep_eq]
    exact congrArg _ (State.countBoundary_rests (s := afterDrawn ..) rests ..)
  case bits => rw [withIntensity_getLsbD w i b hb, if_neg outside]

/-! ### Boundaries (R115, R119) -/

/-- R119: what a step by `c` does to the counter and the saturation flag of region `r`. -/
def Counts (old new : RegionTest) (r : Nat) (c : Int) : Prop :=
  ((c = 0 ∨ (-15 ≤ old.counter r + c ∧ old.counter r + c ≤ 15)) →
    new.counter r = old.counter r + c ∧ new.isSaturated r = old.isSaturated r) ∧
  (c ≠ 0 ∧ (old.counter r + c < -15 ∨ 15 < old.counter r + c) →
    new.counter r = old.counter r ∧ new.isSaturated r = true)

theorem counts_zero {old new : RegionTest} {r : Nat} (hc : new.counter r = old.counter r)
    (hs : new.isSaturated r = old.isSaturated r) : Counts old new r 0 :=
  ⟨fun _ => ⟨hc.trans (Int.add_zero _).symm, hs⟩, fun h => absurd rfl h.1⟩

theorem RegionTest.stepCounter_saturates {t : RegionTest} {r : Nat} {c : Int} (h0 : c ≠ 0)
    (h : t.counter r + c < -15 ∨ 15 < t.counter r + c) :
    t.stepCounter r c = { t with saturated := Table.write false t.saturated r true } :=
  (if_neg h0).trans (if_pos h)

theorem RegionTest.stepCounter_steps {t : RegionTest} {r : Nat} {c : Int} (h0 : c ≠ 0)
    (h : ¬ (t.counter r + c < -15 ∨ 15 < t.counter r + c)) :
    t.stepCounter r c = { t with counters := Table.write 0 t.counters r (t.counter r + c) } :=
  (if_neg h0).trans (if_neg h)

theorem RegionTest.isSaturated_write (t : RegionTest) (q r : Nat) (v : Bool) :
    ({ t with saturated := Table.write false t.saturated q v } : RegionTest).isSaturated r =
      if r = q then v else t.isSaturated r := Table.read_write ..

theorem RegionTest.counter_write (t : RegionTest) (q r : Nat) (c : Int) :
    ({ t with counters := Table.write 0 t.counters q c } : RegionTest).counter r =
      if r = q then c else t.counter r := Table.read_write ..

theorem RegionTest.stepCounter_counts (t : RegionTest) (q r : Nat) (c : Int) :
    Counts t (t.stepCounter q c) r (if q = r then c else 0) := by
  by_cases h0 : c = 0
  · rw [show t.stepCounter q c = t from if_pos h0, h0, ite_self]
    exact counts_zero rfl rfl
  by_cases out : t.counter q + c < -15 ∨ 15 < t.counter q + c
  · rw [stepCounter_saturates h0 out]
    by_cases hq : q = r
    · subst hq
      rw [if_pos rfl]
      exact ⟨fun h => by omega, fun _ => ⟨rfl, (isSaturated_write ..).trans (if_pos rfl)⟩⟩
    · rw [if_neg hq]
      exact counts_zero rfl ((isSaturated_write ..).trans (if_neg (Ne.symm hq)))
  · rw [stepCounter_steps h0 out]
    by_cases hq : q = r
    · subst hq
      rw [if_pos rfl]
      exact ⟨fun _ => ⟨(counter_write ..).trans (if_pos rfl), rfl⟩, fun h => absurd h.2 out⟩
    · rw [if_neg hq]
      exact counts_zero ((counter_write ..).trans (if_neg (Ne.symm hq))) rfl

theorem RegionTest.stepCounter_phase_latched (t : RegionTest) (q : Nat) (c : Int) :
    (t.stepCounter q c).phase = t.phase ∧ (t.stepCounter q c).latched = t.latched := by
  unfold RegionTest.stepCounter
  split
  · exact ⟨rfl, rfl⟩
  · split <;> exact ⟨rfl, rfl⟩

theorem RegionTest.count_phase_latched (t : RegionTest) (b : Bound) (p0 p1 : Point) :
    (t.count b p0 p1).phase = t.phase ∧ (t.count b p0 p1).latched = t.latched := by
  unfold RegionTest.count
  split
  · exact t.stepCounter_phase_latched ..
  · exact ⟨rfl, rfl⟩

theorem RegionTest.count_counts (t : RegionTest) (b : Bound) (p0 p1 : Point) (r : Nat) :
    Counts t (t.count b p0 p1) r
      (if b.region = r ∧ t.phase = .counting then contribution t.latched p0 p1 b.reverse else 0) := by
  by_cases counting : t.phase = .counting
  · simp only [counting, and_true]
    rw [show t.count b p0 p1 = t.stepCounter b.region (contribution t.latched p0 p1 b.reverse) from if_pos counting]
    exact t.stepCounter_counts ..
  · rw [RegionTest.count_rests counting, if_neg fun h => counting h.2]
    exact counts_zero rfl rfl

/-- R115: the contribution to region `r` of a LINE or STEP of segment `seg`, for a test `t`. -/
def State.counted (s : State) (t : RegionTest) (seg : Nat) (p0 p1 : Point) (r : Nat) : Int :=
  match (s.image seg).kind with
  | .drawing _ (some b) =>
    if b.region = r ∧ t.phase = .counting then contribution t.latched p0 p1 b.reverse else 0
  | _ => 0

theorem State.countBoundary_some {s : State} {seg : Nat} {b : Bound} (h : (s.image seg).boundary = some b)
    (p0 p1 : Point) :
    s.countBoundary seg p0 p1 = { s with regions := { s.regions with
      tests := ⟨s.regions.tests.a.count b p0 p1, s.regions.tests.b.count b p0 p1⟩ } } := by
  unfold State.countBoundary
  rw [h]

theorem State.countBoundary_none {s : State} {seg : Nat} (h : (s.image seg).boundary = none) (p0 p1 : Point) :
    s.countBoundary seg p0 p1 = s := by
  unfold State.countBoundary
  rw [h]

theorem State.countBoundary_records (s : State) (seg : Nat) (p0 p1 : Point) :
    (s.countBoundary seg p0 p1).regions.records = s.regions.records ∧
      { s.countBoundary seg p0 p1 with regions := s.regions } = s := by
  cases h : (s.image seg).boundary with
  | none => rw [countBoundary_none h]; exact ⟨rfl, rfl⟩
  | some b => rw [countBoundary_some h]; exact ⟨rfl, rfl⟩

theorem Image.boundary_eq_some {img : Image} {b : Bound} (h : img.boundary = some b) :
    ∃ g, img.kind = .drawing g (some b) := by
  unfold Image.boundary at h
  split at h
  · next g bound hk => exact ⟨g, by rw [hk, h]⟩
  · exact nomatch h
  · exact nomatch h

theorem State.counted_of_boundary_none {s : State} {seg : Nat} (h : (s.image seg).boundary = none) (t : RegionTest)
    (p0 p1 : Point) (r : Nat) : s.counted t seg p0 p1 r = 0 := by
  unfold Image.boundary at h
  unfold State.counted
  cases hk : (s.image seg).kind <;> simp_all

theorem State.countBoundary_test (s : State) (seg : Nat) (p0 p1 : Point) (p : Pen) :
    let old := s.regionTest p
    let new := (s.countBoundary seg p0 p1).regionTest p
    new.phase = old.phase ∧ new.latched = old.latched ∧
      ∀ r, Counts old new r (s.counted old seg p0 p1 r) := by
  intro old new
  cases h : (s.image seg).boundary with
  | none =>
    have same : new = old := by
      unfold new
      rw [countBoundary_none h]
    rw [same]
    exact ⟨rfl, rfl, fun r => by rw [counted_of_boundary_none h]; exact counts_zero rfl rfl⟩
  | some b =>
    obtain ⟨g, hk⟩ := Image.boundary_eq_some h
    have counts : new = old.count b p0 p1 := by
      unfold new
      rw [countBoundary_some h]
      cases p <;> rfl
    rw [counts]
    obtain ⟨phase, latched⟩ := old.count_phase_latched b p0 p1
    refine ⟨phase, latched, fun r => ?_⟩
    unfold State.counted
    rw [hk]
    exact old.count_counts b p0 p1 r

/-- R115: after a boundary, the state but for the Region Unit is that of the passage, and each test counts. -/
theorem countBoundary_passage {s u : State} (hr : u.regions = s.regions) (hs : u.segments = s.segments)
    (p0 p1 : Point) (seg : Nat) :
    let t := u.countBoundary seg p0 p1
    { t with regions := s.regions } = u ∧ t.regions.records = s.regions.records ∧
      ∀ p, (t.regionTest p).phase = (s.regionTest p).phase ∧ (t.regionTest p).latched = (s.regionTest p).latched ∧
        ∀ r, Counts (s.regionTest p) (t.regionTest p) r (s.counted (s.regionTest p) seg p0 p1 r) := by
  obtain ⟨records, rest⟩ := u.countBoundary_records seg p0 p1
  have image : u.image seg = s.image seg := by unfold State.image State.segEntry; rw [hs]
  have tests : ∀ p, u.regionTest p = s.regionTest p := fun p => by unfold State.regionTest; rw [hr]
  refine ⟨by rw [← hr]; exact rest, by rw [records, hr], fun p => ?_⟩
  have counted : ∀ t r, u.counted t seg p0 p1 r = s.counted t seg p0 p1 r := fun t r => by
    unfold State.counted
    rw [image]
  have test := u.countBoundary_test seg p0 p1 p
  simp only [tests, counted] at test
  exact test

/-- Settles O11: a LINE or STEP passes, and its boundary steps or saturates the counter of its region. -/
theorem boundariesAreCounted : Obligations.BoundariesAreCounted := by
  intro s w kind p1 waits which
  rcases which with ⟨rfl, rfl⟩ | ⟨rfl, rfl⟩
  · obtain ⟨rest, records, tests⟩ := countBoundary_passage (s := s)
      (u := afterDrawn s .line w true s.beam.position (wordPoint w)) rfl rfl s.beam.position (wordPoint w)
      s.beam.segment
    exact ⟨_, waits.exec_line.trans (congrArg _ (s.passLine_eq w)), rest, records, tests⟩
  · obtain ⟨rest, records, tests⟩ := countBoundary_passage (s := s)
      (u := afterDrawn s .step w (w.getLsbD 27) s.beam.position (stepEnd s w)) rfl rfl s.beam.position (stepEnd s w)
      s.beam.segment
    exact ⟨_, waits.exec_step.trans (congrArg _ (s.passStep_eq w)), rest, records, tests⟩

end Sys2Proof.Machine
end

section
/-! The orders in which the blocks take a frame close, a frame passage and an expiry (log 3, 4, 5): each order that
a command gives is completed to all the blocks, and an order that names them all is taken as it stands. -/

namespace Sys2Proof.Machine

section
variable {α : Type} [DecidableEq α]

theorem mem_firstOccurrences {x : α} {l : List α} : x ∈ firstOccurrences l ↔ x ∈ l := by
  induction l with
  | nil => exact Iff.rfl
  | cons y l ih =>
    unfold firstOccurrences
    by_cases h : x = y <;> simp [h, ih]

theorem nodup_firstOccurrences (l : List α) : (firstOccurrences l).Nodup := by
  induction l with
  | nil => exact List.nodup_nil
  | cons y l ih =>
    unfold firstOccurrences
    exact List.nodup_cons.2 ⟨by simp, ih.filter _⟩

theorem firstOccurrences_append (l m : List α) :
    firstOccurrences (l ++ m) = firstOccurrences l ++ (firstOccurrences m).filter fun x => decide (x ∉ l) := by
  induction l with
  | nil => simp [firstOccurrences]
  | cons y l ih =>
    simp only [List.cons_append, firstOccurrences, ih, List.filter_append, List.filter_filter]
    congr 2
    refine List.filter_congr fun x _ => ?_
    by_cases h : x = y <;> simp [h]

theorem firstOccurrences_of_nodup {l : List α} (h : l.Nodup) : firstOccurrences l = l := by
  induction l with
  | nil => rfl
  | cons y l ih =>
    obtain ⟨new, rest⟩ := List.nodup_cons.1 h
    unfold firstOccurrences
    rw [ih rest, List.filter_eq_self.2 fun x hx => decide_eq_true (ne_of_mem_of_not_mem hx new)]

/-- An order completed to `all` is an order of all of them. -/
theorem firstOccurrences_perm {order all : List α} (h : all.Nodup) (covers : ∀ x, x ∈ all) :
    (firstOccurrences (order ++ all)).Perm all :=
  (List.perm_ext_iff_of_nodup (nodup_firstOccurrences _) h).2 fun x => by
    simp [mem_firstOccurrences, covers]

/-- An order that names all of them once stands as it is. -/
theorem firstOccurrences_of_perm {order all : List α} (h : all.Nodup) (perm : order.Perm all) :
    firstOccurrences (order ++ all) = order := by
  have none_left : ((firstOccurrences all).filter fun x => decide (x ∉ order)) = [] :=
    List.filter_eq_nil_iff.2 fun x hx => by
      simpa using perm.mem_iff.2 (mem_firstOccurrences.1 hx)
  rw [firstOccurrences_append, none_left, List.append_nil, firstOccurrences_of_nodup (perm.nodup_iff.2 h)]

end

theorem passageOrder_perm (order : List PassageBlock) :
    (passageOrder order).Perm [.regionTest .a, .regionTest .b, .menuUnit] :=
  firstOccurrences_perm (by decide) fun x => by
    cases x with
    | regionTest p => cases p <;> simp
    | menuUnit => simp

theorem passageOrder_of_perm {order : List PassageBlock} (h : order.Perm (passageOrder order)) :
    passageOrder order = order :=
  firstOccurrences_of_perm (by decide) (h.trans (passageOrder_perm order))

theorem closeOrder_perm (order : List CloseBlock) :
    (closeOrder order).Perm [.penEngine .a, .penEngine .b, .tracker .a, .tracker .b] :=
  firstOccurrences_perm (by decide) fun x => by cases x with | _ p => cases p <;> simp

theorem closeOrder_of_perm {order : List CloseBlock} (h : order.Perm (closeOrder order)) :
    closeOrder order = order :=
  firstOccurrences_of_perm (by decide) (h.trans (closeOrder_perm order))

/-! ### Folds over the blocks -/

/-- A fold passes over the blocks that do nothing while `I` holds. -/
theorem foldl_filter_of_rests {σ β : Type} (f : σ → β → σ) (I : σ → Prop) (acts : β → Bool)
    (rests : ∀ s b, I s → acts b = false → f s b = s) (keeps : ∀ s b, I s → acts b = true → I (f s b))
    (bs : List β) {s : σ} (h : I s) : bs.foldl f s = (bs.filter acts).foldl f s := by
  induction bs generalizing s with
  | nil => rfl
  | cons b bs ih =>
    cases hb : acts b with
    | false => rw [List.foldl_cons, rests s b h hb, List.filter_cons_of_neg (by simp [hb]), ih h]
    | true => rw [List.filter_cons_of_pos hb, List.foldl_cons, List.foldl_cons, ih (keeps s b h hb)]

/-- What every step of a fold keeps, the fold keeps. -/
theorem foldl_keeps_of_mem {σ β γ : Type} (f : σ → β → σ) (g : σ → γ) (bs : List β) (keeps : ∀ s, ∀ b ∈ bs, g (f s b) = g s)
    (s : σ) : g (bs.foldl f s) = g s := by
  induction bs generalizing s with
  | nil => rfl
  | cons b bs ih =>
    rw [List.foldl_cons, ih fun s c hc => keeps s c (List.mem_cons_of_mem _ hc)]
    exact keeps s b List.mem_cons_self

/-- A block named once has those before it and those after it, and none of these is the block. -/
theorem exists_split_of_mem_nodup {β : Type} {b : β} {bs : List β} (hb : b ∈ bs) (nodup : bs.Nodup) :
    ∃ before after, bs = before ++ b :: after ∧ b ∉ before ∧ b ∉ after := by
  obtain ⟨before, after, rfl⟩ := List.append_of_mem hb
  obtain ⟨-, tail, apart⟩ := List.nodup_append.1 nodup
  exact ⟨before, after, rfl, fun h => apart b h b List.mem_cons_self rfl, (List.nodup_cons.1 tail).1⟩

end Sys2Proof.Machine
end

section
/-! The frame passage: the tables, the region tests and the Menu Unit (O16 to O18). -/

namespace Sys2Proof.Machine

open Sys2Proof.Stated

/-! ### What begins a frame (R11, R31, R46) -/

/-- R11: the state in which the blocks take the frame passage. -/
def State.begun (s : State) (w : Word) : State :=
  { s with
    link := { held := none, downstream := some w }
    beam := { s.beam with position := ⟨0, 0⟩, segment := 0, element := 0
                          flight := s.beam.flight ++ [darkEntry .frame ⟨0, .ordinal 0⟩ ⟨0, 0⟩] }
    segments := Table.mapAll SegEntry.blank SegEntry.applied s.segments
    rewrite := s.rewrite.blinkStep }

theorem State.passFrame_eq (s : State) (order : List PassageBlock) (w : Word) :
    s.passFrame order w = (passageOrder order).foldl State.blockPassage (s.begun w) := rfl

theorem exec_frame_passes {s : State} {w : Word} (h : Waits s .frame w) (drawn : s.injection = [])
    (order : List PassageBlock) :
    exec (.frame order) s = .next ((passageOrder order).foldl State.blockPassage (s.begun w)) :=
  (exec_frame drawn order).trans (congrArg _ (h.passHeld (s.passFrame order)))

theorem EligibilityRewrite.blinkStep_eq (r : EligibilityRewrite) :
    r.blinkStep = { r with
      phaseOn := if r.counter + 1 = r.halfPeriod then !r.phaseOn else r.phaseOn
      counter := if r.counter + 1 = r.halfPeriod then 0 else r.counter + 1 } := by
  unfold EligibilityRewrite.blinkStep
  split <;> rfl

/-- R31: every pending image is applied. -/
theorem State.segEntry_begun {s : State} (h : Table.wf SegEntry.blank s.segments = true) (w : Word) (n : Nat) :
    (s.begun w).segEntry n = { current := (s.segEntry n).staged.getD (s.segEntry n).current, staged := none } :=
  by
  unfold State.segEntry
  split
  · rfl
  · exact Table.read_mapAll SegEntry.blank SegEntry.applied rfl h n

/-! ### A region test takes the frame passage (R118, R120) -/

section
variable {s : State} {p : Pen}

theorem State.regionFramePassage_idle (h : (s.regionTest p).phase = .idle) : s.regionFramePassage p = s := by
  unfold State.regionFramePassage
  rw [h]

theorem State.regionFramePassage_waiting (h : (s.regionTest p).phase = .waiting) :
    s.regionFramePassage p = { s with
      pens := s.pens.set p { s.pen p with attempt := .regionCount }
      regions := { s.regions with tests := s.regions.tests.set p (RegionTest.latch (s.tracker p).position) } } := by
  unfold State.regionFramePassage
  rw [h]
  rfl

theorem State.regionFramePassage_counting (h : (s.regionTest p).phase = .counting) :
    s.regionFramePassage p = s.evaluateRegion p := by
  unfold State.regionFramePassage
  rw [h]

theorem State.evaluateRegion_winner {r : Nat} (hw : s.regions.winner (s.regionTest p) = some r) :
    s.evaluateRegion p = (s.setRegionTest p { s.regionTest p with phase := .idle }).claimOutcome p
      (.region r (s.regionTest p).latched (s.regionTest p).saturatedSeen) := by
  unfold State.evaluateRegion
  dsimp only
  rw [hw]

theorem State.evaluateRegion_none (hw : s.regions.winner (s.regionTest p) = none) :
    s.evaluateRegion p = (s.setRegionTest p { s.regionTest p with phase := .idle }).endMiss p .outside
      (.settled none false) := by
  unfold State.evaluateRegion
  dsimp only
  rw [hw]

theorem State.regionFramePassage_delivers {r : Nat} (h : (s.regionTest p).phase = .counting)
    (hw : s.regions.winner (s.regionTest p) = some r) (room : Room s) :
    s.regionFramePassage p = { s with
      regions := { s.regions with tests := s.regions.tests.set p { s.regionTest p with phase := .idle } }
      pens := s.pens.set p { s.pen p with attempt := afterDelivery (s.pen p) none, lastOutcome := .region }
      notices := s.notices.enter (routeOf s p (s.regions.record r).route) (some p)
        (.region r (s.regionTest p).latched (s.regionTest p).saturatedSeen) } := by
  have hasRoom : (s.setRegionTest p { s.regionTest p with phase := .idle }).hasRoom = true := (room_iff s).1 room
  rw [State.regionFramePassage_counting h, State.evaluateRegion_winner hw]
  exact (State.claimOutcome_room _ p _ hasRoom).trans (State.deliverRegion_eq ..)

theorem State.regionFramePassage_holds {r : Nat} (h : (s.regionTest p).phase = .counting)
    (hw : s.regions.winner (s.regionTest p) = some r) (room : ¬ Room s) :
    s.regionFramePassage p = { s with
      regions := { s.regions with tests := s.regions.tests.set p { s.regionTest p with phase := .idle } }
      pens := s.pens.set p { s.pen p with
        attempt := .holding (.region r (s.regionTest p).latched (s.regionTest p).saturatedSeen) } } := by
  have full : (s.setRegionTest p { s.regionTest p with phase := .idle }).hasRoom = false := (not_room_iff s).1 room
  rw [State.regionFramePassage_counting h, State.evaluateRegion_winner hw]
  exact State.claimOutcome_full _ p _ full

theorem State.regionFramePassage_misses (h : (s.regionTest p).phase = .counting)
    (hw : s.regions.winner (s.regionTest p) = none) :
    s.regionFramePassage p = afterMiss s p (s.pen p) .outside (.settled none false) := by
  rw [State.regionFramePassage_counting h, State.evaluateRegion_none hw]
  refine (endMiss_eq_afterMiss ..).trans ?_
  unfold afterMiss
  dsimp only [State.setRegionTest]
  rw [Pair.set_set]
  cases p <;> rfl

end

/-- What the frame passage of one pen's test leaves. -/
structure TestPassage (p : Pen) (s t : State) : Prop where
  trackers : t.trackers = s.trackers
  segments : t.segments = s.segments
  menu : t.menu = s.menu
  records : t.regions.records = s.regions.records
  rewrite : t.rewrite = { s.rewrite with echo := t.rewrite.echo }
  otherPens : ∀ q, q ≠ p → t.pen q = s.pen q
  otherTests : ∀ q, q ≠ p → t.regionTest q = s.regionTest q

/-- R122: a miss is an end of pen p's attempt alone. -/
theorem testPassage_afterMiss (s : State) (p : Pen) (e : PenEngine) (reason : MissReason) (next : AttemptState) :
    TestPassage p s (afterMiss s p e reason next) :=
  ⟨rfl, rfl, rfl, rfl, rfl, fun _ hq => Pair.get_set_other _ hq _, fun _ hq => Pair.get_set_other _ hq _⟩

theorem testPassage_regionFramePassage (s : State) (p : Pen) : TestPassage p s (s.regionFramePassage p) := by
  have pens (v : PenEngine) : ∀ q, q ≠ p → (s.pens.set p v).get q = s.pen q := fun q hq => Pair.get_set_other _ hq _
  have tests (v : RegionTest) : ∀ q, q ≠ p → (s.regions.tests.set p v).get q = s.regionTest q :=
    fun q hq => Pair.get_set_other _ hq _
  cases h : (s.regionTest p).phase with
  | idle =>
    rw [State.regionFramePassage_idle h]
    exact ⟨rfl, rfl, rfl, rfl, rfl, fun _ _ => rfl, fun _ _ => rfl⟩
  | waiting =>
    rw [State.regionFramePassage_waiting h]
    exact ⟨rfl, rfl, rfl, rfl, rfl, pens _, tests _⟩
  | counting =>
    cases hw : s.regions.winner (s.regionTest p) with
    | none =>
      rw [State.regionFramePassage_misses h hw]
      exact testPassage_afterMiss ..
    | some r =>
      by_cases room : Room s
      · rw [State.regionFramePassage_delivers h hw room]
        exact ⟨rfl, rfl, rfl, rfl, rfl, pens _, tests _⟩
      · rw [State.regionFramePassage_holds h hw room]
        exact ⟨rfl, rfl, rfl, rfl, rfl, pens _, tests _⟩

/-! ### The Menu Unit takes the frame passage (R138, R139) -/

/-- R138: the menu lock has no owner, or its idle counter does not run. -/
def MenuRests (s : State) : Prop := s.menu.owner = none ∨ s.menu.idleLimit = 0

section
variable {s : State} {p : Pen}

theorem State.menuFramePassage_rests (h : MenuRests s) : s.menuFramePassage = s := by
  unfold State.menuFramePassage
  split
  · rfl
  · next owned =>
    exact if_pos (h.resolve_left (by rw [owned]; exact Option.some_ne_none _))

theorem State.menuFramePassage_owned (owned : s.menu.owner = some p) (runs : s.menu.idleLimit ≠ 0) :
    s.menuFramePassage =
      let stepped := { s with menu := { s.menu with idleCounter := s.menu.idleCounter + 1 } }
      if s.menu.idleCounter + 1 = s.menu.idleLimit then stepped.idleReturn p else stepped := by
  unfold State.menuFramePassage
  rw [owned]
  exact if_neg runs

/-- R139: the claim of an idle return of owner `p` with the stack `root :: rest`. -/
def idleClaim (p : Pen) (root : Nat) (rest : List Nat) : IdleClaim :=
  { owner := p, root := root, topBefore := (root :: rest).getLastD 0, depthBefore := rest.length + 1 }

theorem State.idleRequest_room {c : IdleClaim} (room : Room s) :
    s.idleRequest c = { s with
      notices := s.notices.enter (channelSet (s.pen c.owner).record.channel) (some c.owner)
        (.idleReturn c.root c.topBefore c.depthBefore) } := by
  have none_waits : s.menu.claim.isNone = true := by simp [room.2.2.2.2]
  unfold State.idleRequest State.enterIdleReturn State.defaultRoute
  rw [none_waits, (room_iff s).1 room, onlyChannel_eq_channelSet]
  rfl

theorem State.idleRequest_full {c : IdleClaim} (room : ¬ Room s) :
    s.idleRequest c = { s with menu := { s.menu with claim := some c } } := by
  unfold State.idleRequest
  rw [(not_room_iff s).1 room, Bool.and_false]
  rfl

/-- R138: the stack is cut to its root and the lock released; then the notice is requested. -/
theorem State.idleReturn_eq {root : Nat} {rest : List Nat} (hs : s.menu.stack = root :: rest) :
    s.idleReturn p =
      { s with menu := { s.menu with stack := [root], owner := none, idleCounter := 0 } }.idleRequest
        (idleClaim p root rest) := by
  unfold State.idleReturn MenuUnit.top idleClaim
  rw [hs, List.getLastD_eq_getLast?]
  rfl

theorem State.menuFramePassage_cuts {root : Nat} {rest : List Nat} (owned : s.menu.owner = some p)
    (runs : s.menu.idleLimit ≠ 0) (hs : s.menu.stack = root :: rest) :
    let claim := idleClaim p root rest
    let cut : MenuUnit := { s.menu with stack := [root], owner := none, idleCounter := 0 }
    (s.menu.idleCounter + 1 ≠ s.menu.idleLimit →
      s.menuFramePassage = { s with menu := { s.menu with idleCounter := s.menu.idleCounter + 1 } }) ∧
    (s.menu.idleCounter + 1 = s.menu.idleLimit → Room s → s.menuFramePassage = { s with
      menu := cut
      notices := s.notices.enter (channelSet (s.pen p).record.channel) (some p)
        (.idleReturn root claim.topBefore claim.depthBefore) }) ∧
    (s.menu.idleCounter + 1 = s.menu.idleLimit → ¬ Room s →
      s.menuFramePassage = { s with menu := { cut with claim := some claim } }) := by
  intro claim cut
  have owned := State.menuFramePassage_owned owned runs
  have cuts (h : s.menu.idleCounter + 1 = s.menu.idleLimit) :
      s.menuFramePassage = { s with menu := cut }.idleRequest claim := by
    rw [owned]
    exact (if_pos h).trans (State.idleReturn_eq (s := { s with menu := { s.menu with
      idleCounter := s.menu.idleCounter + 1 } }) hs)
  have sameRoom : Room { s with menu := cut } ↔ Room s := Iff.rfl
  exact ⟨fun h => owned.trans (if_neg h), fun h room => (cuts h).trans (State.idleRequest_room (sameRoom.2 room)),
    fun h room => (cuts h).trans (State.idleRequest_full fun h => room (sameRoom.1 h))⟩

end

/-! ### All the blocks take the frame passage (log 4) -/

theorem testsRest_blockPassage {s : State} (h : ∀ q, (s.regionTest q).phase = .idle) :
    (∀ p, s.blockPassage (.regionTest p) = s) ∧ ∀ q, ((s.blockPassage .menuUnit).regionTest q).phase = .idle := by
  refine ⟨fun p => State.regionFramePassage_idle (h p), fun q => ?_⟩
  show (s.menuFramePassage.regions.tests.get q).phase = .idle
  rw [State.menuFramePassage_regions]
  exact h q

/-- While no test runs, the Menu Unit alone does something. -/
theorem foldl_blockPassage_testsRest {s : State} (h : ∀ q, (s.regionTest q).phase = .idle) (order : List PassageBlock) :
    (passageOrder order).foldl State.blockPassage s = s.menuFramePassage := by
  have menuOnly : (passageOrder order).filter (fun b => decide (b = .menuUnit)) = [.menuUnit] :=
    List.perm_singleton.1 ((passageOrder_perm order).filter _)
  rw [foldl_filter_of_rests State.blockPassage (fun s => ∀ q, (s.regionTest q).phase = .idle)
    (fun b => decide (b = .menuUnit)) ?rests ?keeps _ h, menuOnly]
  · rfl
  case rests =>
    intro s b idle hb
    cases b with
    | regionTest p => exact (testsRest_blockPassage idle).1 p
    | menuUnit => exact absurd hb (by decide)
  case keeps =>
    intro s b idle hb
    rw [of_decide_eq_true hb]
    exact (testsRest_blockPassage idle).2

/-- While the idle counter does not run, the two tests alone do something, in one order or the other. -/
theorem foldl_blockPassage_menuRests {s : State} (h : MenuRests s) (order : List PassageBlock) {p q : Pen} (hq : q ≠ p) :
    (passageOrder order).foldl State.blockPassage s = (s.regionFramePassage p).regionFramePassage q ∨
      (passageOrder order).foldl State.blockPassage s = (s.regionFramePassage q).regionFramePassage p := by
  have tests : ((passageOrder order).filter fun b => decide (b ≠ .menuUnit)).Perm [.regionTest p, .regionTest q] :=
    by
    refine ((passageOrder_perm order).filter _).trans ?_
    cases p
    · rw [show q = .b by cases q; exacts [absurd rfl hq, rfl]]
      exact .refl _
    · rw [show q = .a by cases q; exacts [rfl, absurd rfl hq]]
      exact .swap ..
  rw [foldl_filter_of_rests State.blockPassage MenuRests (fun b => decide (b ≠ .menuUnit)) ?rests ?keeps _ h]
  · rcases List.perm_pair.1 tests with one | other
    · rw [one]
      exact .inl rfl
    · rw [other]
      exact .inr rfl
  case rests =>
    intro s b rests hb
    rw [show b = .menuUnit by simpa using hb]
    exact State.menuFramePassage_rests rests
  case keeps =>
    intro s b rests hb
    cases b with
    | regionTest p =>
      unfold MenuRests
      rw [show (s.blockPassage (.regionTest p)).menu = s.menu from (testPassage_regionFramePassage s p).menu]
      exact rests
    | menuUnit => exact absurd hb (by decide)

/-! ### What the blocks leave (R11) -/

section
variable (s : State) (b : PassageBlock)

@[simp] theorem State.blockPassage_trackers : (s.blockPassage b).trackers = s.trackers := by
  cases b with
  | regionTest p => exact (testPassage_regionFramePassage s p).trackers
  | menuUnit => exact s.menuFramePassage_trackers

@[simp] theorem State.blockPassage_segments : (s.blockPassage b).segments = s.segments := by
  cases b with
  | regionTest p => exact (testPassage_regionFramePassage s p).segments
  | menuUnit => exact s.menuFramePassage_segments

/-- R46: the blocks leave the blink phase and its counter. -/
theorem State.blockPassage_blink :
    { (s.blockPassage b).rewrite with echo := ⟨none, none⟩ } = { s.rewrite with echo := ⟨none, none⟩ } := by
  cases b with
  | regionTest p =>
    show { (s.regionFramePassage p).rewrite with echo := ⟨none, none⟩ } = _
    rw [(testPassage_regionFramePassage s p).rewrite]
  | menuUnit =>
    show { s.menuFramePassage.rewrite with echo := ⟨none, none⟩ } = _
    rw [s.menuFramePassage_rewrite]

end

/-- Settles O16: the tables take the passage first, and the blocks then leave them. -/
theorem framePassageBeginsAFrame : Obligations.FramePassageBeginsAFrame := by
  refine ⟨fun s order w waits drawn wf => ?_, fun s order w waits drawn wf => ?_⟩
  · have passes := exec_frame_passes waits drawn order
    have keeps {γ : Type} (g : State → γ) (h : ∀ s b, g (State.blockPassage s b) = g s) :
        g ((passageOrder order).foldl State.blockPassage (s.begun w)) = g (s.begun w) := foldl_keeps _ g h _ _
    have begunBlink : (s.begun w).rewrite = _ := EligibilityRewrite.blinkStep_eq s.rewrite
    have segments := keeps State.segments State.blockPassage_segments
    have blink := keeps (fun s => { s.rewrite with echo := ⟨none, none⟩ }) State.blockPassage_blink
    refine ⟨_, passes, keeps State.link State.blockPassage_link, keeps State.beam State.blockPassage_beam,
      keeps State.trackers State.blockPassage_trackers, keeps State.injection State.blockPassage_injection,
      keeps State.decoder State.blockPassage_decoder, keeps State.supervisor State.blockPassage_supervisor,
      keeps State.pending State.blockPassage_pending, keeps State.draws State.blockPassage_draws, fun n => ?_, ?_, ?_,
      fun idle rests => ?_⟩
    · rw [← State.segEntry_begun wf w n]
      unfold State.segEntry
      rw [segments]
    · refine (congrArg (·.halfPeriod) blink).trans ?_
      rw [begunBlink]
    · refine (congrArg (fun r => (r.phaseOn, r.counter)) blink).trans ?_
      rw [begunBlink]
      dsimp only
      split <;> rfl
    · have begunIdle : ∀ p, ((s.begun w).regionTest p).phase = .idle := idle
      have begunRests : MenuRests (s.begun w) := rests
      rw [foldl_blockPassage_testsRest begunIdle, State.menuFramePassage_rests begunRests, begunBlink]
      exact ⟨rfl, rfl, rfl, rfl, rfl⟩
  · refine ⟨s.begun w, passageOrder order, passageOrder_perm order, passageOrder_of_perm,
      exec_frame_passes waits drawn order, ?_, State.segEntry_begun wf w⟩
    unfold State.begun
    rw [EligibilityRewrite.blinkStep_eq]

/-- Settles O17: with the tests at rest the Menu Unit alone takes the frame passage. -/
theorem idleReturnCutsTheStack : Obligations.IdleReturnCutsTheStack := by
  refine ⟨fun s order w p root rest waits drawn idle owned runs hs => ?_,
    fun s => ⟨State.menuFramePassage_rests, fun p root rest owned runs hs => State.menuFramePassage_cuts owned runs hs⟩⟩
  have begunIdle : ∀ q, ((s.begun w).regionTest q).phase = .idle := idle
  obtain ⟨steps, enters, claims⟩ := State.menuFramePassage_cuts (s := s.begun w) owned runs hs
  have sameRoom : Room (s.begun w) ↔ Room s := Iff.rfl
  refine ⟨_, (exec_frame_passes waits drawn order).trans (congrArg _ (foldl_blockPassage_testsRest begunIdle order)), ?_⟩
  refine ⟨fun h => ?_, fun h room => ?_, fun h room => ?_⟩
  · rw [steps h]
    exact ⟨rfl, rfl⟩
  · rw [enters h (sameRoom.2 room)]
    exact ⟨rfl, rfl⟩
  · rw [claims h fun h => room (sameRoom.1 h)]
    exact ⟨rfl, rfl⟩

/-! ### A region test among the blocks (R118, R120) -/

/-- Nothing that pen p's region test reads is changed. -/
structure SameTest (p : Pen) (s t : State) : Prop where
  test : t.regionTest p = s.regionTest p
  pen : t.pen p = s.pen p
  tracker : t.tracker p = s.tracker p
  records : t.regions.records = s.regions.records

/-- A block that is not pen p's test leaves what that test reads. -/
theorem sameTest_blockPassage (s : State) {p : Pen} {b : PassageBlock} (hb : b ≠ .regionTest p) :
    SameTest p s (s.blockPassage b) := by
  cases b with
  | regionTest q =>
    have hq : p ≠ q := fun h => hb (congrArg _ h.symm)
    have passage := testPassage_regionFramePassage s q
    exact ⟨passage.otherTests p hq, passage.otherPens p hq, congrArg (·.get p) passage.trackers, passage.records⟩
  | menuUnit =>
    exact ⟨congrArg (·.tests.get p) s.menuFramePassage_regions, congrArg (·.get p) s.menuFramePassage_pens,
      congrArg (·.get p) s.menuFramePassage_trackers, congrArg (·.records) s.menuFramePassage_regions⟩

theorem sameTest_foldl (p : Pen) {bs : List PassageBlock} (hbs : .regionTest p ∉ bs) (s : State) :
    SameTest p s (bs.foldl State.blockPassage s) := by
  induction bs generalizing s with
  | nil => exact ⟨rfl, rfl, rfl, rfl⟩
  | cons b bs ih =>
    obtain ⟨new, rest⟩ := not_or.1 (mt List.mem_cons.2 hbs)
    have one := sameTest_blockPassage s (p := p) (Ne.symm new)
    have more := ih rest (s.blockPassage b)
    exact ⟨more.test.trans one.test, more.pen.trans one.pen, more.tracker.trans one.tracker,
      more.records.trans one.records⟩

/-- R118: in the frame passage of all the blocks, a WAITING test is latched at its tracker's position. -/
theorem foldl_blockPassage_waiting {s : State} {p : Pen} (h : (s.regionTest p).phase = .waiting)
    (order : List PassageBlock) :
    let t := (passageOrder order).foldl State.blockPassage s
    t.regionTest p = RegionTest.latch (s.tracker p).position ∧ t.pen p = { s.pen p with attempt := .regionCount } := by
  have named : .regionTest p ∈ passageOrder order := (passageOrder_perm order).mem_iff.2 (by cases p <;> simp)
  obtain ⟨before, after, split, notBefore, notAfter⟩ := exists_split_of_mem_nodup named (nodup_firstOccurrences _)
  intro t
  have ht : t = after.foldl State.blockPassage
      ((before.foldl State.blockPassage s).regionFramePassage p) := by
    unfold t
    rw [split, List.foldl_append, List.foldl_cons]
    rfl
  have first := sameTest_foldl p notBefore s
  generalize before.foldl State.blockPassage s = u at ht first
  have latched := State.regionFramePassage_waiting (s := u) (p := p) (by rw [first.test, h])
  have last := sameTest_foldl p notAfter (u.regionFramePassage p)
  rw [← ht, latched] at last
  refine ⟨last.test.trans ?_, last.pen.trans ?_⟩
  · rw [← first.tracker]
    exact Pair.get_set_same ..
  · rw [← first.pen]
    exact Pair.get_set_same ..

theorem RegionUnit.winner_congr {u v : RegionUnit} (h : u.records = v.records) : u.winner = v.winner := by
  have record : u.record = v.record := by
    funext r
    unfold RegionUnit.record
    rw [h]
  have winnerIn (t : RegionTest) (rs : List Nat) : u.winnerIn t rs = v.winnerIn t rs := by
    induction rs with
    | nil => rfl
    | cons r rs ih =>
      simp only [RegionUnit.winnerIn, RegionUnit.inside, record, ih]
      rfl
  funext t
  exact winnerIn t regionNumbers

/-- R63, R120: `t` is a state in which pen p's COUNTING test of `s` has been decided. -/
def RegionDecided (s : State) (p : Pen) (t : State) : Prop :=
  t.regionTest p = { s.regionTest p with phase := .idle } ∧
  let point := (s.regionTest p).latched
  let seen := (s.regionTest p).saturatedSeen
  let settled : AttemptState := if (s.pen p).tip = .down then .settled none false else .ready
  (∀ r, s.regions.winner (s.regionTest p) = some r → Room s →
    t.pen p = { s.pen p with attempt := settled, lastOutcome := .region } ∧
    t.notices = s.notices.enter
      (if (s.regions.record r).route = 0 then channelSet (s.pen p).record.channel
       else (s.regions.record r).route) (some p) (.region r point seen)) ∧
  (∀ r, s.regions.winner (s.regionTest p) = some r → ¬ Room s →
    t.pen p = { s.pen p with attempt := .holding (.region r point seen) } ∧ t.notices = s.notices) ∧
  (s.regions.winner (s.regionTest p) = none →
    t.pen p = { s.pen p with attempt := .settled none false, candidates := [], exclusions := []
                             lastOutcome := .miss .outside } ∧
    t.notices = (afterMiss s p (s.pen p) .outside (.settled none false)).notices)

theorem afterDelivery_region {e : PenEngine} (h : e.record.mode = .region) (key : Option Key) :
    afterDelivery e key = if e.tip = .down then .settled none false else .ready :=
  if_neg (by rw [h]; decide)

theorem regionDecided_regionFramePassage {s : State} {p : Pen} (h : (s.regionTest p).phase = .counting)
    (mode : (s.pen p).record.mode = .region) : RegionDecided s p (s.regionFramePassage p) := by
  refine ⟨?_, fun r hw room => ?_, fun r hw room => ?_, fun hw => ?_⟩
  · cases hw : s.regions.winner (s.regionTest p) with
    | none =>
      rw [State.regionFramePassage_misses h hw]
      exact Pair.get_set_same ..
    | some r =>
      by_cases room : Room s
      · rw [State.regionFramePassage_delivers h hw room]
        exact Pair.get_set_same ..
      · rw [State.regionFramePassage_holds h hw room]
        exact Pair.get_set_same ..
  · rw [State.regionFramePassage_delivers h hw room, afterDelivery_region mode]
    exact ⟨Pair.get_set_same .., rfl⟩
  · rw [State.regionFramePassage_holds h hw room]
    exact ⟨Pair.get_set_same .., rfl⟩
  · rw [State.regionFramePassage_misses h hw]
    exact ⟨Pair.get_set_same .., rfl⟩

/-- R118: a test that is not COUNTING enters no notice and makes no claim at a frame passage. -/
theorem regionFramePassage_quiet {s : State} {q : Pen} (h : (s.regionTest q).phase ≠ .counting)
    (law : s.RegionAttemptLaw q) :
    (s.regionFramePassage q).notices = s.notices ∧ (Room (s.regionFramePassage q) ↔ Room s) := by
  cases phase : (s.regionTest q).phase with
  | idle =>
    rw [State.regionFramePassage_idle phase]
    exact ⟨rfl, Iff.rfl⟩
  | waiting =>
    have attempt : (s.pen q).attempt = .regionWait := law.1.1 phase
    have room : (s.setPen q { s.pen q with attempt := .regionCount }).hasRoom = s.hasRoom :=
      State.hasRoom_setPen s q (by rw [attempt]; rfl)
    rw [State.regionFramePassage_waiting phase]
    exact ⟨rfl, by rw [room_iff, room_iff, ← room]; rfl⟩
  | counting => exact absurd phase h

/-- What comes before that leaves pen p's test, the notices and the room does not change how it is decided. -/
theorem RegionDecided.of_before {s u t : State} {p : Pen} (same : SameTest p s u) (notices : u.notices = s.notices)
    (room : Room u ↔ Room s) (h : RegionDecided u p t) : RegionDecided s p t := by
  have record : u.regions.record = s.regions.record := by
    funext r
    unfold RegionUnit.record
    rw [same.records]
  have miss : (afterMiss u p (u.pen p) .outside (.settled none false)).notices =
      (afterMiss s p (s.pen p) .outside (.settled none false)).notices := by
    have hasRoom : u.hasRoom = s.hasRoom := by rw [Bool.eq_iff_iff, ← room_iff, ← room_iff, room]
    unfold afterMiss
    rw [hasRoom, notices, same.pen]
  unfold RegionDecided at h ⊢
  rw [miss, record, RegionUnit.winner_congr same.records, same.test, same.pen, notices, room] at h
  exact h

theorem RegionDecided.of_after {s u t : State} {p : Pen} (same : SameTest p u t) (notices : t.notices = u.notices)
    (h : RegionDecided s p u) : RegionDecided s p t := by
  unfold RegionDecided at h ⊢
  rw [same.test, same.pen, notices]
  exact h

/-- R120: in the frame passage of all the blocks, a COUNTING test is decided whether the other pen's test takes the
passage before it or after it. -/
theorem regionDecided_foldl {s : State} {p : Pen} (h : (s.regionTest p).phase = .counting)
    (mode : (s.pen p).record.mode = .region) (other : (s.regionTest (otherPen p)).phase ≠ .counting)
    (law : s.RegionAttemptLaw (otherPen p)) (rests : MenuRests s) (order : List PassageBlock) :
    RegionDecided s p ((passageOrder order).foldl State.blockPassage s) := by
  have apart : PassageBlock.regionTest (otherPen p) ≠ .regionTest p := fun h => otherPen_ne p (PassageBlock.regionTest.inj h)
  rcases foldl_blockPassage_menuRests rests order (otherPen_ne p) with first | second
  · rw [first]
    have decided := regionDecided_regionFramePassage h mode
    have passage := testPassage_regionFramePassage s p
    have test := passage.otherTests _ (otherPen_ne p)
    have quiet := regionFramePassage_quiet (s := s.regionFramePassage p) (q := otherPen p) (by rw [test]; exact other) (by
      unfold State.RegionAttemptLaw State.tracker
      rw [test, passage.otherPens _ (otherPen_ne p), passage.trackers]
      exact law)
    exact decided.of_after (sameTest_blockPassage _ apart) quiet.1
  · rw [second]
    have same := sameTest_blockPassage s apart
    have quiet := regionFramePassage_quiet other law
    refine RegionDecided.of_before same quiet.1 quiet.2 (regionDecided_regionFramePassage ?_ ?_)
    · rw [same.test]
      exact h
    · rw [same.pen]
      exact mode

/-- Settles O18: a WAITING test is latched and a COUNTING one decided, whatever the order of the blocks. -/
theorem framePassageDecidesRegionTests : Obligations.FramePassageDecidesRegionTests := by
  refine ⟨fun s order w p waits drawn phase => ?_, fun s order w p waits drawn phase attempt mode other law rests => ?_,
    fun s p => ⟨State.regionFramePassage_idle, fun phase => ?_, fun phase => ⟨fun r hw room => ?_, fun r hw room => ?_,
      fun hw => ?_⟩⟩⟩
  · have begunPhase : ((s.begun w).regionTest p).phase = .waiting := phase
    obtain ⟨test, pen⟩ := foldl_blockPassage_waiting begunPhase order
    refine ⟨_, exec_frame_passes waits drawn order, ?_, ?_, fun r => ?_, pen⟩
    · rw [test]; rfl
    · rw [test]; rfl
    · rw [test]; exact ⟨rfl, rfl⟩
  · have begunPhase : ((s.begun w).regionTest p).phase = .counting := phase
    exact ⟨_, exec_frame_passes waits drawn order,
      regionDecided_foldl (s := s.begun w) begunPhase mode other law rests order⟩
  · have latched := State.regionFramePassage_waiting phase
    have test : (s.regionFramePassage p).regionTest p = RegionTest.latch (s.tracker p).position := by
      rw [latched]
      exact Pair.get_set_same ..
    show s.regionFramePassage p = _ ∧ ((s.regionFramePassage p).regionTest p).phase = .counting ∧ _ ∧ _
    rw [show s.blockPassage (.regionTest p) = s.regionFramePassage p from rfl, test]
    exact ⟨latched, rfl, rfl, fun r => ⟨rfl, rfl⟩⟩
  · exact State.regionFramePassage_delivers phase hw room
  · exact State.regionFramePassage_holds phase hw room
  · exact State.regionFramePassage_misses phase hw

end Sys2Proof.Machine
end

section
/-! The evaluation of a region test (O19). -/

namespace Sys2Proof.Machine

open Sys2Proof.Stated

/-- R120: of the regions of `rs`, `r` is inside and none that is inside goes before it. -/
def RegionUnit.BestOf (u : RegionUnit) (t : RegionTest) (rs : List Nat) (r : Nat) : Prop :=
  r ∈ rs ∧ u.inside t r = true ∧ ∀ q ∈ rs, u.inside t q = true →
    (u.record q).priority < (u.record r).priority ∨ ((u.record q).priority = (u.record r).priority ∧ r ≤ q)

section
variable {u : RegionUnit} {t : RegionTest}

theorem RegionUnit.BestOf.unique {rs : List Nat} {r q : Nat} (hr : u.BestOf t rs r) (hq : u.BestOf t rs q) : r = q := by
  obtain ⟨memR, insideR, beatsR⟩ := hr
  obtain ⟨memQ, insideQ, beatsQ⟩ := hq
  have := beatsR q memQ insideQ
  have := beatsQ r memR insideR
  omega

theorem RegionUnit.bestOf_cons_of_outside {r : Nat} (h : u.inside t r ≠ true) (rs : List Nat) (q : Nat) :
    u.BestOf t (r :: rs) q ↔ u.BestOf t rs q := by
  have apart {x : Nat} (hx : u.inside t x = true) : x ≠ r := fun e => h (e ▸ hx)
  constructor
  · rintro ⟨mem, inside, beats⟩
    exact ⟨(List.mem_cons.1 mem).resolve_left (apart inside), inside, fun x hx => beats x (List.mem_cons_of_mem _ hx)⟩
  · rintro ⟨mem, inside, beats⟩
    exact ⟨List.mem_cons_of_mem _ mem, inside,
      fun x hx hin => beats x ((List.mem_cons.1 hx).resolve_left (apart hin)) hin⟩

/-- R120: the regions are gone through in rising order, so an equal that comes later does not go before. -/
theorem RegionUnit.winnerIn_cases {rs : List Nat} (rising : rs.Pairwise (· < ·)) :
    (u.winnerIn t rs = none ∧ ∀ r ∈ rs, u.inside t r ≠ true) ∨ ∃ r, u.winnerIn t rs = some r ∧ u.BestOf t rs r := by
  induction rs with
  | nil => exact .inl ⟨rfl, nofun⟩
  | cons r rs ih =>
    obtain ⟨first, rising⟩ := List.pairwise_cons.1 rising
    unfold RegionUnit.winnerIn
    by_cases hin : u.inside t r = true
    · rw [if_pos hin]
      rcases ih rising with ⟨none_wins, outside⟩ | ⟨q, wins, best⟩
      · rw [none_wins]
        refine .inr ⟨r, rfl, List.mem_cons_self, hin, fun x hx hxin => ?_⟩
        rcases List.mem_cons.1 hx with rfl | hx
        · exact .inr ⟨rfl, le_refl _⟩
        · exact absurd hxin (outside x hx)
      · obtain ⟨mem, inside, beats⟩ := best
        rw [wins]
        by_cases higher : (u.record r).priority < (u.record q).priority
        · refine .inr ⟨q, if_pos higher, List.mem_cons_of_mem _ mem, inside, fun x hx hxin => ?_⟩
          rcases List.mem_cons.1 hx with rfl | hx
          · exact .inl higher
          · exact beats x hx hxin
        · refine .inr ⟨r, if_neg higher, List.mem_cons_self, hin, fun x hx hxin => ?_⟩
          rcases List.mem_cons.1 hx with rfl | hx
          · exact .inr ⟨rfl, le_refl _⟩
          · have := first x hx
            have := beats x hx hxin
            omega
    · rw [if_neg hin]
      rcases ih rising with ⟨none_wins, outside⟩ | ⟨q, wins, best⟩
      · exact .inl ⟨none_wins, fun x hx => by
          rcases List.mem_cons.1 hx with rfl | hx
          · exact hin
          · exact outside x hx⟩
      · exact .inr ⟨q, wins, (bestOf_cons_of_outside hin rs q).2 best⟩

theorem RegionUnit.winnerIn_eq_some_iff {rs : List Nat} (rising : rs.Pairwise (· < ·)) {r : Nat} :
    u.winnerIn t rs = some r ↔ u.BestOf t rs r := by
  rcases winnerIn_cases (u := u) (t := t) rising with ⟨none_wins, outside⟩ | ⟨q, wins, best⟩
  · rw [none_wins]
    exact ⟨nofun, fun h => absurd h.2.1 (outside r h.1)⟩
  · rw [wins, Option.some_inj]
    exact ⟨fun h => h ▸ best, best.unique⟩

theorem RegionUnit.winnerIn_eq_none_iff {rs : List Nat} (rising : rs.Pairwise (· < ·)) :
    u.winnerIn t rs = none ↔ ∀ r ∈ rs, u.inside t r ≠ true := by
  rcases winnerIn_cases (u := u) (t := t) rising with ⟨none_wins, outside⟩ | ⟨q, wins, best⟩
  · exact ⟨fun _ => outside, fun _ => none_wins⟩
  · rw [wins]
    exact ⟨nofun, fun h => absurd best.2.1 (h q best.1)⟩

end

theorem mem_regionNumbers {r : Nat} : r ∈ regionNumbers ↔ 1 ≤ r ∧ r ≤ 63 := by
  rw [regionNumbers, List.mem_range'_1, Config.lastRegion]
  omega

theorem regionNumbers_rising : regionNumbers.Pairwise (· < ·) := List.pairwise_lt_range' ..

theorem RegionRule.satisfied_iff (rule : RegionRule) (k : Int) :
    rule.satisfied k = true ↔ (rule = .evenOdd → Odd k) ∧ (rule = .nonzero → k ≠ 0) := by
  cases rule with
  | evenOdd => simp [RegionRule.satisfied, Int.odd_iff]
  | nonzero => simp [RegionRule.satisfied]

theorem RegionUnit.inside_iff (u : RegionUnit) (t : RegionTest) (r : Nat) :
    u.inside t r = true ↔ (u.record r).enabled = true ∧ t.isSaturated r = false ∧
      ((u.record r).rule = .evenOdd → Odd (t.counter r)) ∧ ((u.record r).rule = .nonzero → t.counter r ≠ 0) := by
  unfold RegionUnit.inside
  rw [Bool.and_eq_true, Bool.and_eq_true, RegionRule.satisfied_iff, Bool.not_eq_true', and_assoc]

/-- Settles O19: the winner is the best of the regions 1 to 63. -/
theorem evaluationFindsTheWinner : Obligations.EvaluationFindsTheWinner := by
  intro u t Inside
  have inside (r : Nat) : Inside r ↔ r ∈ regionNumbers ∧ u.inside t r = true := by
    rw [mem_regionNumbers, RegionUnit.inside_iff, and_assoc]
  refine ⟨fun r => ?_, ?_, ?_⟩
  · simp only [inside, and_imp]
    exact (RegionUnit.winnerIn_eq_some_iff regionNumbers_rising).trans (by rw [RegionUnit.BestOf, and_assoc])
  · simp only [inside, not_and]
    exact RegionUnit.winnerIn_eq_none_iff regionNumbers_rising
  · simp only [RegionTest.saturatedSeen, List.any_eq_true, mem_regionNumbers, and_assoc]

end Sys2Proof.Machine
end

section
/-! The requests of a tracker, and what it does at a frame close (O22, and the blocks of O21). -/

namespace Sys2Proof.Machine

open Sys2Proof.Stated

/-! ### POSITION requests (R107) -/

/-- R107 case 2: a POSITION notice of pen p that has not begun to be sent and is not FINAL. -/
def Fresh (p : Pen) (n : Notice) : Prop :=
  n.pen = some p ∧ n.accepted = 0 ∧ ∃ c, n.body = .position c ∧ c.final = false

theorem Notice.rewritable_iff (p : Pen) (n : Notice) : n.rewritable p = true ↔ Fresh p n := by
  unfold Notice.rewritable Fresh
  cases n.body with
  | position c => simp [and_assoc]
  | _ => simp

theorem Notice.rewritten_of_fresh {p : Pen} {n : Notice} (h : Fresh p n) (req : PositionClaim) :
    n.rewritten p req = { n with body := .position req } := if_pos ((n.rewritable_iff p).2 h)

theorem Notice.rewritten_of_not_fresh {p : Pen} {n : Notice} (h : ¬ Fresh p n) (req : PositionClaim) :
    n.rewritten p req = n := if_neg fun hr => h ((n.rewritable_iff p).1 hr)

theorem Tracker.finalWaits_iff (t : Tracker) :
    t.finalWaits = true ↔ ∃ c, t.positionClaim = some c ∧ c.final = true := by
  unfold Tracker.finalWaits
  cases t.positionClaim <;> simp

section
variable {s : State} {p : Pen} {req : PositionClaim}

theorem State.positionRequest_refused (h : ∃ c, (s.tracker p).positionClaim = some c ∧ c.final = true)
    (hreq : req.final = false) : s.positionRequest p req = s := by
  unfold State.positionRequest
  rw [(Tracker.finalWaits_iff _).2 h, hreq]
  rfl

theorem State.positionRequest_placed
    (h : (¬ ∃ c, (s.tracker p).positionClaim = some c ∧ c.final = true) ∨ req.final = true) :
    s.positionRequest p req = (s.placePosition p req).setTracker p
      { (s.placePosition p req).tracker p with lastReported := req.point } := by
  have goes : ((s.tracker p).finalWaits && !req.final) = false := by
    rcases h with h | h
    · rw [← Tracker.finalWaits_iff, Bool.not_eq_true] at h
      rw [h]
      rfl
    · rw [h]
      exact Bool.and_false _
  unfold State.positionRequest
  rw [goes]
  rfl

theorem State.placePosition_rewrites (h : ∃ n ∈ s.notices.queue, Fresh p n) :
    s.placePosition p req =
      { s with notices := { s.notices with queue := s.notices.queue.map (Notice.rewritten p req) } } := by
  have found : s.notices.queue.any (Notice.rewritable p) = true := by
    simpa only [List.any_eq_true, Notice.rewritable_iff] using h
  exact if_pos found

theorem State.not_rewritable_of_not_fresh (h : ∀ n ∈ s.notices.queue, ¬ Fresh p n) :
    s.notices.queue.any (Notice.rewritable p) = false := by
  simpa only [List.any_eq_false, Notice.rewritable_iff] using h

theorem State.placePosition_enters (h : ∀ n ∈ s.notices.queue, ¬ Fresh p n)
    (hc : (s.tracker p).positionClaim = none) (room : Room s)
    (hq : ∀ n ∈ s.notices.queue, ∀ c, n.body = .position c → n.pen ≠ some p) :
    s.placePosition p req = { s with
      notices := s.notices.enter (channelSet (s.pen p).record.channel) (some p) (.position req) } := by
  unfold State.placePosition State.defaultRoute
  dsimp only
  rw [State.not_rewritable_of_not_fresh h, hc, (positionQueued_eq_false_iff s p).2 hq, (room_iff s).1 room,
    onlyChannel_eq_channelSet]
  rfl

theorem State.placePosition_waits (h : ∀ n ∈ s.notices.queue, ¬ Fresh p n)
    (hw : (s.tracker p).positionClaim ≠ none ∨ ¬ Room s ∨
      ∃ n ∈ s.notices.queue, n.pen = some p ∧ ∃ c, n.body = .position c) :
    s.placePosition p req = s.setTracker p { s.tracker p with positionClaim := some req } := by
  have full : (s.tracker p).positionClaim = none → (!s.positionQueued p && s.hasRoom) = false := by
    intro none_waits
    rcases hw with hw | room | ⟨n, hn, own, c, hc⟩
    · exact absurd none_waits hw
    · rw [(not_room_iff s).1 room, Bool.and_false]
    · have queued : s.positionQueued p = true := by
        rw [← Bool.not_eq_false, positionQueued_eq_false_iff]
        exact fun h => h n hn c hc own
      rw [queued]
      rfl
  unfold State.placePosition
  dsimp only
  rw [State.not_rewritable_of_not_fresh h]
  cases hc : (s.tracker p).positionClaim with
  | some c => rfl
  | none =>
    rw [full hc]
    rfl

end

/-- Settles O22: each case of a POSITION request. -/
theorem positionRequestIsCoalesced : Obligations.PositionRequestIsCoalesced := by
  intro s p req u finalWaits fresh reported
  refine ⟨State.positionRequest_refused, fun goes => ⟨fun hfresh => ?_, fun hfresh => ⟨fun hc room hq => ?_, fun hw => ?_⟩⟩⟩
  · refine ⟨s.notices.queue.map (Notice.rewritten p req), ?_, List.length_map _, fun i n hi => ?_⟩
    · rw [State.positionRequest_placed goes, State.placePosition_rewrites hfresh]
      rfl
    · rw [List.getElem?_map, hi]
      exact ⟨fun h => congrArg some (Notice.rewritten_of_fresh h req),
        fun h => congrArg some (Notice.rewritten_of_not_fresh h req)⟩
  · rw [State.positionRequest_placed goes, State.placePosition_enters hfresh hc room hq]
    rfl
  · rw [State.positionRequest_placed goes, State.placePosition_waits hfresh hw, State.tracker_setTracker]
    exact congrArg (fun x => ({ s with trackers := x } : State)) (Pair.set_set ..)

theorem State.tracker_placePosition (s : State) (p : Pen) (req : PositionClaim) :
    (s.placePosition p req).tracker p = { s.tracker p with
      positionClaim := ((s.placePosition p req).tracker p).positionClaim } := by
  unfold State.placePosition
  dsimp only
  split
  · rfl
  · split
    · rw [State.tracker_setTracker]
    · split
      · rfl
      · rw [State.tracker_setTracker]

/-- R107: a POSITION request writes the claim and the last reported position of its tracker, and no more. -/
theorem State.tracker_positionRequest (s : State) (p : Pen) (req : PositionClaim) :
    (s.positionRequest p req).tracker p = { s.tracker p with
      positionClaim := ((s.positionRequest p req).tracker p).positionClaim
      lastReported := ((s.positionRequest p req).tracker p).lastReported } := by
  unfold State.positionRequest
  split
  · rfl
  · dsimp only
    rw [State.tracker_setTracker, State.tracker_placePosition]

/-- R107: a FINAL request is always made. -/
theorem State.tracker_positionRequest_final (s : State) (p : Pen) {req : PositionClaim} (h : req.final = true) :
    (s.positionRequest p req).tracker p = { s.tracker p with
      positionClaim := ((s.positionRequest p req).tracker p).positionClaim, lastReported := req.point } := by
  rw [State.positionRequest_placed (.inr h), State.tracker_setTracker, State.tracker_placePosition]

/-! ### TRACK requests and notifications (R67, R106) -/

section
variable (s : State) (p : Pen)

theorem tracker_afterTrackRequest (c : TrackClaim) :
    (afterTrackRequest s p c).tracker p = { s.tracker p with
      trackClaim := ((afterTrackRequest s p c).tracker p).trackClaim } := by
  unfold afterTrackRequest
  split
  · rfl
  · have written : ({ s with trackers := s.trackers.set p { s.tracker p with trackClaim := some c } } : State).tracker p =
        { s.tracker p with trackClaim := some c } := Pair.get_set_same ..
    rw [written]

@[simp] theorem pens_afterTrackRequest (c : TrackClaim) : (afterTrackRequest s p c).pens = s.pens := by
  unfold afterTrackRequest
  split <;> rfl

@[simp] theorem rewrite_afterTrackRequest (c : TrackClaim) : (afterTrackRequest s p c).rewrite = s.rewrite := by
  unfold afterTrackRequest
  split <;> rfl

@[simp] theorem trackers_afterUnlock : (afterUnlock s p).trackers = s.trackers := by
  unfold afterUnlock
  split <;> rfl

end

/-- R99: a coast limit that is reached loses the lock. -/
theorem State.coastLimitReached_eq (s : State) (p : Pen) :
    s.coastLimitReached p =
      if (s.tracker p).state = .coasting ∧ (s.tracker p).missCount = (s.tracker p).coastLimit then
        afterTrackRequest { s with trackers := s.trackers.set p { s.tracker p with state := .seeking, missCount := 0 } } p
          { event := .lost, point := (s.tracker p).position, origin := (s.tracker p).origin }
      else s := by
  unfold State.coastLimitReached
  dsimp only
  rw [trackRequest_eq_afterTrackRequest]
  rfl

/-! ### The frame close at a tracker (R98 to R100) -/

theorem struckDots_eq_onesIn (set : BitVec 4) : struckDots set = onesIn set 4 := by
  have all : ∀ i : Fin (2 ^ 4), struckDots ⟨i⟩ = onesIn (BitVec.ofFin i) 4 := by decide
  exact all set.toFin

/-- The struck dots of a tally. -/
def hitsOf (t : Tally) : Nat := struckDots t.e + struckDots t.w + struckDots t.n + struckDots t.s

theorem Tally.struck_eq_hitsOf (t : Tally) : t.struck = hitsOf t := by
  unfold Tally.struck hitsOf
  simp only [struckDots_eq_onesIn]

/-- R100: a coordinate corrected by the dots of two opposite arms. -/
def moved (pitch x : Nat) (plus minus : BitVec 4) : Nat :=
  (max 0 (min 4095 ((x : Int) + (((struckDots plus : Int) - struckDots minus) * pitch).tdiv 2))).toNat

/-- R100: the corrected position. -/
def movedPoint (u : Tracker) : Point :=
  ⟨moved u.pitch u.position.x u.tally.e u.tally.w, moved u.pitch u.position.y u.tally.n u.tally.s⟩

theorem Tracker.corrected_eq_movedPoint (u : Tracker) : u.corrected = movedPoint u := by
  unfold Tracker.corrected Point.displaced movedPoint moved
  rw [clampCoord_eq_toNat, clampCoord_eq_toNat, struckDots_eq_onesIn, struckDots_eq_onesIn, struckDots_eq_onesIn,
    struckDots_eq_onesIn]
  rfl

/-- The state with tracker p written and its tally emptied. -/
def State.tallied (s : State) (p : Pen) (v : Tracker) : State :=
  { s with trackers := s.trackers.set p { v with tally := ⟨0, 0, 0, 0⟩ } }

/-- R99: the lock of tracker p is lost. -/
def State.lost (s : State) (p : Pen) (u : Tracker) : State :=
  afterTrackRequest { s with trackers := s.trackers.set p { s.tracker p with state := .seeking, missCount := 0 } } p
    { event := .lost, point := u.position, origin := u.origin }

/-- R100: tracker p after the correction, and after the TRACK LOCKED request of one that was SEEKING. -/
def State.relocked (s : State) (p : Pen) : State :=
  let u := s.tracker p
  let locked := s.tallied p { u with state := .locked, position := movedPoint u, missCount := 0 }
  if u.state = .seeking then
    afterTrackRequest locked p { event := .locked, point := movedPoint u, origin := u.origin }
  else locked

section
variable {s : State} {p : Pen}

theorem Tracker.active_of_ne_off {t : Tracker} (h : t.state ≠ .off) : (!t.active) ≠ true := by
  simp [Tracker.active, h]

theorem State.trackerFrameClose_off (h : (s.tracker p).state = .off) : s.trackerFrameClose p = s :=
  if_pos (by simp [Tracker.active, h])

theorem State.trackerFrameClose_settles (h : (s.tracker p).state ≠ .off) (hs : (s.tracker p).settle = true) :
    s.trackerFrameClose p = s.tallied p { s.tracker p with settle := false } :=
  (if_neg (Tracker.active_of_ne_off h)).trans (if_pos hs)

theorem State.trackerFrameClose_coasts (h : (s.tracker p).state ≠ .off) (hs : (s.tracker p).settle = false)
    (hits : hitsOf (s.tracker p).tally = 0) : s.trackerFrameClose p = s.coast p :=
  ((if_neg (Tracker.active_of_ne_off h)).trans (if_neg (by simp [hs]))).trans
    (if_pos ((Tally.struck_eq_hitsOf _).trans hits))

theorem State.trackerFrameClose_corrects (h : (s.tracker p).state ≠ .off) (hs : (s.tracker p).settle = false)
    (hits : hitsOf (s.tracker p).tally ≠ 0) : s.trackerFrameClose p = s.correct p :=
  ((if_neg (Tracker.active_of_ne_off h)).trans (if_neg (by simp [hs]))).trans
    (if_neg fun none_struck => hits ((Tally.struck_eq_hitsOf _).symm.trans none_struck))

/-- R99: what is done in each state of the tracker. -/
theorem State.coast_cases :
    ((s.tracker p).state = .seeking → s.coast p = s.tallied p (s.tracker p)) ∧
    ((s.tracker p).state = .locked → s.coast p =
      ((s.tallied p { s.tracker p with state := .coasting, missCount := 1 }).notifyUnlocked p).coastLimitReached p) ∧
    ((s.tracker p).state = .coasting → s.coast p =
      (s.tallied p { s.tracker p with missCount := (s.tracker p).missCount + 1 }).coastLimitReached p) := by
  unfold State.coast
  dsimp only
  split
  · next h => exact ⟨fun h' => absurd (h.symm.trans h') nofun, fun h' => absurd (h.symm.trans h') nofun,
      fun h' => absurd (h.symm.trans h') nofun⟩
  · next h => exact ⟨fun _ => rfl, fun h' => absurd (h.symm.trans h') nofun, fun h' => absurd (h.symm.trans h') nofun⟩
  · next h => exact ⟨fun h' => absurd (h.symm.trans h') nofun, fun _ => rfl, fun h' => absurd (h.symm.trans h') nofun⟩
  · next h => exact ⟨fun h' => absurd (h.symm.trans h') nofun, fun h' => absurd (h.symm.trans h') nofun, fun _ => rfl⟩

theorem State.coastLimitReached_of_coasting (h : (s.tracker p).state = .coasting) :
    s.coastLimitReached p =
      if (s.tracker p).missCount = (s.tracker p).coastLimit then s.lost p (s.tracker p) else s := by
  rw [State.coastLimitReached_eq]
  simp only [h, true_and]
  rfl

theorem State.tracker_tallied (v : Tracker) : (s.tallied p v).tracker p = { v with tally := ⟨0, 0, 0, 0⟩ } :=
  Pair.get_set_same ..

theorem State.coast_locked (h : (s.tracker p).state = .locked) :
    s.coast p =
      let coasting := afterUnlock (s.tallied p { s.tracker p with state := .coasting, missCount := 1 }) p
      if (s.tracker p).coastLimit = 1 then coasting.lost p (s.tracker p) else coasting := by
  have tracker : (afterUnlock (s.tallied p { s.tracker p with state := .coasting, missCount := 1 }) p).tracker p =
      { s.tracker p with state := .coasting, missCount := 1, tally := ⟨0, 0, 0, 0⟩ } := by
    unfold State.tracker
    rw [trackers_afterUnlock]
    exact Pair.get_set_same ..
  rw [State.coast_cases.2.1 h, notifyUnlocked_eq_afterUnlock]
  refine (State.coastLimitReached_of_coasting (s := afterUnlock (s.tallied p { s.tracker p with
    state := .coasting, missCount := 1 }) p) (by rw [tracker])).trans ?_
  rw [tracker]
  simp only [eq_comm (a := 1)]
  rfl

theorem State.coast_coasting (h : (s.tracker p).state = .coasting) :
    s.coast p =
      let coasting := s.tallied p { s.tracker p with missCount := (s.tracker p).missCount + 1 }
      if (s.tracker p).missCount + 1 = (s.tracker p).coastLimit then coasting.lost p (s.tracker p) else coasting := by
  have tracker := State.tracker_tallied (s := s) (p := p)
    { s.tracker p with missCount := (s.tracker p).missCount + 1 }
  rw [State.coast_cases.2.2 h]
  refine (State.coastLimitReached_of_coasting (s := s.tallied p { s.tracker p with
    missCount := (s.tracker p).missCount + 1 }) (by rw [tracker]; exact h)).trans ?_
  rw [tracker]
  rfl

theorem State.tracker_relocked : (s.relocked p).tracker p = { s.tracker p with
    state := .locked, position := movedPoint (s.tracker p), missCount := 0, tally := ⟨0, 0, 0, 0⟩
    trackClaim := ((s.relocked p).tracker p).trackClaim } := by
  unfold State.relocked
  dsimp only
  split
  · rw [tracker_afterTrackRequest, State.tracker_tallied]
  · rw [State.tracker_tallied]

theorem State.correct_eq : s.correct p =
    if movedPoint (s.tracker p) = (s.tracker p).lastReported then s.relocked p
    else (s.relocked p).positionRequest p
      { point := movedPoint (s.tracker p), origin := (s.tracker p).origin, final := false } := by
  have relock : (s.setTracker p { s.tracker p with
      state := .locked, position := (s.tracker p).corrected, missCount := 0, tally := Tally.empty }).lockedRequest p
        (s.tracker p).state = s.relocked p := by
    unfold State.lockedRequest
    dsimp only
    rw [trackRequest_eq_afterTrackRequest, State.tracker_setTracker, Tracker.corrected_eq_movedPoint]
    rfl
  unfold State.correct
  dsimp only
  rw [relock]
  unfold State.movedRequest
  dsimp only
  rw [State.tracker_relocked]
  exact ite_not ..

end

/-- R98 to R100: what a tracker does when it takes the frame close. -/
theorem State.trackerFrameClose_cases (s : State) (p : Pen) :
    let u := s.tracker p
    let t := s.trackerFrameClose p
    (u.state = .off → t = s) ∧
    (u.state ≠ .off → u.settle = true → t = s.tallied p { u with settle := false }) ∧
    (u.state = .seeking → u.settle = false → hitsOf u.tally = 0 → t = s.tallied p u) ∧
    (u.state = .locked → u.settle = false → hitsOf u.tally = 0 →
      let coasting := afterUnlock (s.tallied p { u with state := .coasting, missCount := 1 }) p
      t = if u.coastLimit = 1 then coasting.lost p u else coasting) ∧
    (u.state = .coasting → u.settle = false → hitsOf u.tally = 0 →
      let coasting := s.tallied p { u with missCount := u.missCount + 1 }
      t = if u.missCount + 1 = u.coastLimit then coasting.lost p u else coasting) ∧
    (u.state ≠ .off → u.settle = false → hitsOf u.tally ≠ 0 →
      t = if movedPoint u = u.lastReported then s.relocked p
        else (s.relocked p).positionRequest p { point := movedPoint u, origin := u.origin, final := false }) := by
  refine ⟨State.trackerFrameClose_off, State.trackerFrameClose_settles, fun h hs hits => ?_, fun h hs hits => ?_,
    fun h hs hits => ?_, fun h hs hits => (State.trackerFrameClose_corrects h hs hits).trans State.correct_eq⟩
  · exact (State.trackerFrameClose_coasts (by rw [h]; decide) hs hits).trans (State.coast_cases.1 h)
  · exact (State.trackerFrameClose_coasts (by rw [h]; decide) hs hits).trans (State.coast_locked h)
  · exact (State.trackerFrameClose_coasts (by rw [h]; decide) hs hits).trans (State.coast_coasting h)

end Sys2Proof.Machine
end

section
/-! Retires and the frame close (O20, O21). -/

namespace Sys2Proof.Machine

open Sys2Proof.Stated

/-! ### The removal of the head (R14) -/

theorem State.takeRetire_next {s : State} {e : Entry} {rest : List Entry} (hf : s.beam.flight = e :: rest)
    (stays : s.decoder.state ≠ .drain ∨ rest ≠ []) (order : List CloseBlock) :
    s.takeRetire order = State.retired { s with beam := { s.beam with flight := rest } } order e := by
  obtain ⟨decoder, flight⟩ := State.retired_reads { s with beam := { s.beam with flight := rest } } order e
  unfold State.takeRetire
  rw [hf]
  simp only [State.endDrain]
  rw [decoder, flight, if_neg]
  exact fun both => stays.elim (fun h => h both.1) fun h => h both.2

theorem State.retired_drawing {e : Entry} (h : DrawingKind e) (s : State) (order : List CloseBlock) :
    s.retired order e = { s with beam := { s.beam with afterglow := some e } } := by
  unfold State.retired
  rcases h with h | h | h | h | h <;> rw [h]

theorem State.retired_seg_or_pass {e : Entry} (h : e.kind = .seg ∨ e.kind = .pass) (s : State)
    (order : List CloseBlock) : s.retired order e = s := by
  unfold State.retired
  rcases h with h | h <;> rw [h]

theorem Supervisor.frameClose_eq_timerAfterClose (v : Supervisor) :
    v.frameClose = { v with timer := timerAfterClose v } := by
  have restarts : timerOfSetting v.setting = if v.setting = 0 then .off else .running (10 * v.setting) := by
    unfold timerOfSetting
    rw [Nat.mul_comm]
    rfl
  unfold Supervisor.frameClose timerAfterClose
  rw [← restarts]
  split
  · next off => rw [if_pos off, ← off]
  · next running => rw [if_neg (by rw [running]; exact nofun)]
  · next stalled => rw [if_neg (by rw [stalled]; exact nofun)]

/-- R14: the state in which the blocks take the frame close. -/
def State.closing (s : State) (rest : List Entry) : State :=
  { s with
    beam := { s.beam with flight := rest, afterglow := none }
    supervisor := { s.supervisor with timer := timerAfterClose s.supervisor } }

theorem exec_retire_frame {s : State} {e : Entry} {rest : List Entry} (hf : s.beam.flight = e :: rest)
    (hk : e.kind = .frame) (stays : s.decoder.state ≠ .drain ∨ rest ≠ []) (order : List CloseBlock) :
    exec (.retire order) s = .next ((closeOrder order).foldl State.blockClose (s.closing rest)) := by
  refine congrArg _ ((State.takeRetire_next hf stays order).trans ?_)
  unfold State.retired State.frameClose
  rw [hk]
  dsimp only
  rw [Supervisor.frameClose_eq_timerAfterClose]
  rfl

/-! ### The frame close at a pen engine that does not gather (R58, R60) -/

section
variable {s : State} {p : Pen}

theorem State.penFrameClose_off (h : (s.pen p).attempt = .off) : s.penFrameClose p = s := by
  unfold State.penFrameClose
  rw [h]

theorem State.penFrameClose_waits (h : (s.pen p).attempt = .ready ∨ (s.pen p).attempt = .regionWait ∨
    (s.pen p).attempt = .regionCount ∨ ∃ o, (s.pen p).attempt = .holding o) :
    s.penFrameClose p = s.writeEcho p none := by
  unfold State.penFrameClose
  rcases h with h | h | h | ⟨o, h⟩ <;> rw [h]

theorem State.penFrameClose_settled {k : Option Key} {b : Bool} (h : (s.pen p).attempt = .settled k b) :
    s.penFrameClose p =
      (s.setPen p { s.pen p with attempt := (s.pen p).settledClose k b }).writeEcho p none := by
  unfold State.penFrameClose
  rw [h]

theorem PenEngine.settledClose_eq (e : PenEngine) (k : Option Key) (b : Bool) :
    e.settledClose k b =
      if e.record.mode = .continuous then (if b = true then .settled k false else .ready) else .settled k b := by
  unfold PenEngine.settledClose
  cases e.record.mode <;> rfl

/-- R60: at a pen that does not gather, the frame close leaves the trackers, and no pen begins to gather. -/
theorem State.penFrameClose_trackers (h : (s.pen p).attempt ≠ .gathering) :
    (s.penFrameClose p).trackers = s.trackers ∧ ((s.penFrameClose p).pen p).attempt ≠ .gathering := by
  have echo (u : State) (hu : (u.pen p).attempt ≠ .gathering) :
      (u.writeEcho p none).trackers = u.trackers ∧ ((u.writeEcho p none).pen p).attempt ≠ .gathering := by
    unfold State.pen
    rw [State.writeEcho_pens]
    exact ⟨u.writeEcho_trackers .., hu⟩
  cases ha : (s.pen p).attempt with
  | off =>
    rw [State.penFrameClose_off ha]
    exact ⟨rfl, h⟩
  | gathering => exact absurd ha h
  | settled k b =>
    rw [State.penFrameClose_settled ha]
    refine echo (s.setPen p _) ?_
    rw [State.pen_setPen]
    obtain ⟨k', b', closed⟩ | closed := (s.pen p).settledClose_cases k b <;> rw [closed] <;> exact nofun
  | ready => rw [State.penFrameClose_waits (.inl ha)]; exact echo s h
  | regionWait => rw [State.penFrameClose_waits (.inr (.inl ha))]; exact echo s h
  | regionCount => rw [State.penFrameClose_waits (.inr (.inr (.inl ha)))]; exact echo s h
  | holding o => rw [State.penFrameClose_waits (.inr (.inr (.inr ⟨o, ha⟩)))]; exact echo s h

/-- R48: the echo segment of a pen after the frame close at a pen that does not gather. -/
def closedEcho (e : PenEngine) (echo : Option Nat) : Option Nat :=
  if e.attempt ≠ .off ∧ e.record.echo = true then none else echo

theorem State.writeEcho_none (h : (s.pen p).attempt ≠ .off) :
    s.writeEcho p none = s.setEcho p (closedEcho (s.pen p) (s.rewrite.echo.get p)) := by
  unfold State.writeEcho closedEcho
  split
  · next echo => rw [if_pos ⟨h, echo⟩]
  · next echo =>
    rw [if_neg fun both => echo both.2]
    unfold State.setEcho
    rw [Pair.set_get]

/-- R60: a quiet pen does nothing at a frame close but to clear an echo. -/
theorem State.penFrameClose_quiet (h : Quiet s p) :
    s.penFrameClose p = s.setEcho p (closedEcho (s.pen p) (s.rewrite.echo.get p)) := by
  obtain ⟨idle, rested, -⟩ := h
  cases ha : (s.pen p).attempt with
  | off =>
    have off : closedEcho (s.pen p) (s.rewrite.echo.get p) = s.rewrite.echo.get p := if_neg fun both => both.1 ha
    rw [State.penFrameClose_off ha, off]
    unfold State.setEcho
    rw [Pair.set_get]
  | gathering => exact absurd ha idle
  | settled k b =>
    have kept : (s.pen p).settledClose k b = (s.pen p).attempt := by
      rw [PenEngine.settledClose_eq, if_neg fun hm => rested hm k b ha, ha]
    rw [State.penFrameClose_settled ha, kept, ← State.writeEcho_none (by rw [ha]; exact nofun)]
    exact congrArg (fun x => State.writeEcho { s with pens := x } p none) (Pair.set_get ..)
  | ready => exact (State.penFrameClose_waits (.inl ha)).trans (State.writeEcho_none (by rw [ha]; exact nofun))
  | regionWait =>
    exact (State.penFrameClose_waits (.inr (.inl ha))).trans (State.writeEcho_none (by rw [ha]; exact nofun))
  | regionCount =>
    exact (State.penFrameClose_waits (.inr (.inr (.inl ha)))).trans (State.writeEcho_none (by rw [ha]; exact nofun))
  | holding o =>
    exact (State.penFrameClose_waits (.inr (.inr (.inr ⟨o, ha⟩)))).trans (State.writeEcho_none (by rw [ha]; exact nofun))

end

/-! ### What one block leaves of the others (log 3) -/

/-- The pens and the echo registers. -/
def State.penParts (s : State) : Pair PenEngine × EligibilityRewrite := (s.pens, s.rewrite)

theorem penParts_afterTrackRequest (s : State) (p : Pen) (c : TrackClaim) :
    (afterTrackRequest s p c).penParts = s.penParts := by
  unfold State.penParts
  rw [pens_afterTrackRequest, rewrite_afterTrackRequest]

/-- R67, R99: the frame close at a tracker ends a region attempt of its pen, or leaves the pens and the echoes. -/
theorem State.trackerFrameClose_penParts (s : State) (p : Pen) :
    (s.trackerFrameClose p).penParts = s.penParts ∨ (s.trackerFrameClose p).penParts = (afterUnlock s p).penParts := by
  obtain ⟨off, settles, seeks, unlocks, coasts, corrects⟩ := s.trackerFrameClose_cases p
  have lost (t : State) (u : Tracker) : (t.lost p u).penParts = t.penParts := penParts_afterTrackRequest ..
  have relocked : (s.relocked p).penParts = s.penParts := by
    unfold State.relocked
    dsimp only
    split
    · exact penParts_afterTrackRequest ..
    · rfl
  by_cases hoff : (s.tracker p).state = .off
  · exact .inl (congrArg _ (off hoff))
  cases hs : (s.tracker p).settle with
  | true => exact .inl (by rw [settles hoff hs]; rfl)
  | false =>
    by_cases hits : hitsOf (s.tracker p).tally = 0
    · cases hst : (s.tracker p).state with
      | off => exact absurd hst hoff
      | seeking => exact .inl (by rw [seeks hst hs hits]; rfl)
      | locked =>
        right
        have told : (afterUnlock (s.tallied p { s.tracker p with state := .coasting, missCount := 1 }) p).penParts =
            (afterUnlock s p).penParts := by
          unfold afterUnlock
          rw [show (s.tallied p _).pen p = s.pen p from rfl]
          split <;> rfl
        rw [unlocks hst hs hits]
        split
        · rw [lost, told]
        · exact told
      | coasting =>
        left
        rw [coasts hst hs hits]
        split
        · exact lost ..
        · rfl
    · left
      rw [corrects hoff hs hits]
      split
      · exact relocked
      · rw [← relocked]
        unfold State.penParts
        rw [State.positionRequest_pens, State.positionRequest_rewrite]

theorem afterUnlock_of_not_region {s : State} {p : Pen}
    (h : (s.pen p).attempt ≠ .regionWait ∧ (s.pen p).attempt ≠ .regionCount) : afterUnlock s p = s :=
  if_neg fun region => region.elim h.1 h.2

theorem State.trackerFrameClose_pens_of_not_region {s : State} {p : Pen}
    (h : (s.pen p).attempt ≠ .regionWait ∧ (s.pen p).attempt ≠ .regionCount) :
    (s.trackerFrameClose p).pens = s.pens := by
  have parts := s.trackerFrameClose_penParts p
  rw [afterUnlock_of_not_region h, or_self] at parts
  exact congrArg Prod.fst parts

theorem State.trackerFrameClose_not_gathering {s : State} {p : Pen} (h : (s.pen p).attempt ≠ .gathering) :
    ((s.trackerFrameClose p).pen p).attempt ≠ .gathering := by
  unfold State.pen
  rcases s.trackerFrameClose_penParts p with same | told
  · rw [show (s.trackerFrameClose p).pens = s.pens from congrArg Prod.fst same]
    exact h
  · rw [show (s.trackerFrameClose p).pens = _ from congrArg Prod.fst told]
    dsimp only [State.penParts]
    unfold afterUnlock
    split
    · rw [show ((afterMiss s p _ _ _).pens.get p) = _ from Pair.get_set_same ..]
      exact nofun
    · exact h

/-- The pen whose block it is. -/
def ownerOf : CloseBlock → Pen
  | .penEngine p => p
  | .tracker p => p

/-- R93: the frame close at one pen's block leaves the other pen as it was. -/
theorem samePen_blockClose (s : State) {p : Pen} {b : CloseBlock} (h : ownerOf b ≠ p) : SamePen p s (s.blockClose b) := by
  cases b with
  | penEngine q => exact (samePen_keeps p s).penFrameClose s q h (.refl p s)
  | tracker q => exact (samePen_keeps p s).trackerFrameClose s q h (.refl p s)

theorem pen_blockClose {s : State} {p : Pen} {b : CloseBlock} (hb : b ≠ .penEngine p)
    (h : (s.pen p).attempt ≠ .regionWait ∧ (s.pen p).attempt ≠ .regionCount) : (s.blockClose b).pen p = s.pen p := by
  by_cases own : ownerOf b = p
  · cases b with
    | penEngine q => exact absurd (congrArg CloseBlock.penEngine own) hb
    | tracker q =>
      rw [show q = p from own]
      exact congrArg (·.get p) (State.trackerFrameClose_pens_of_not_region h)
  · exact (samePen_blockClose s own).pen

theorem pen_foldl_blockClose {p : Pen} {bs : List CloseBlock} (hbs : .penEngine p ∉ bs) {s : State}
    (h : (s.pen p).attempt ≠ .regionWait ∧ (s.pen p).attempt ≠ .regionCount) :
    (bs.foldl State.blockClose s).pen p = s.pen p := by
  induction bs generalizing s with
  | nil => rfl
  | cons b bs ih =>
    obtain ⟨new, rest⟩ := not_or.1 (mt List.mem_cons.2 hbs)
    have one := pen_blockClose (b := b) (Ne.symm new) h
    rw [List.foldl_cons, ih rest (by rw [one]; exact h), one]

theorem tracker_blockClose {s : State} {p : Pen} {b : CloseBlock} (hb : b ≠ .tracker p)
    (h : (s.pen p).attempt ≠ .gathering) :
    (s.blockClose b).tracker p = s.tracker p ∧ ((s.blockClose b).pen p).attempt ≠ .gathering := by
  by_cases own : ownerOf b = p
  · cases b with
    | tracker q => exact absurd (congrArg CloseBlock.tracker own) hb
    | penEngine q =>
      rw [show q = p from own]
      obtain ⟨trackers, idle⟩ := State.penFrameClose_trackers h
      exact ⟨congrArg (·.get p) trackers, idle⟩
  · have same := samePen_blockClose s own
    exact ⟨same.tracker, by rw [same.pen]; exact h⟩

theorem tracker_foldl_blockClose {p : Pen} {bs : List CloseBlock} (hbs : .tracker p ∉ bs) {s : State}
    (h : (s.pen p).attempt ≠ .gathering) :
    (bs.foldl State.blockClose s).tracker p = s.tracker p ∧
      ((bs.foldl State.blockClose s).pen p).attempt ≠ .gathering := by
  induction bs generalizing s with
  | nil => exact ⟨rfl, h⟩
  | cons b bs ih =>
    obtain ⟨new, rest⟩ := not_or.1 (mt List.mem_cons.2 hbs)
    obtain ⟨tracker, idle⟩ := tracker_blockClose (b := b) (Ne.symm new) h
    obtain ⟨trackers, idles⟩ := ih rest idle
    exact ⟨trackers.trans tracker, idles⟩

theorem mem_closeOrder (order : List CloseBlock) (b : CloseBlock) : b ∈ closeOrder order :=
  (closeOrder_perm order).mem_iff.2 (by cases b with | _ p => cases p <;> simp)

/-- Each block takes the frame close once: there are those before it and those after it. -/
theorem closeOrder_split (order : List CloseBlock) (b : CloseBlock) :
    ∃ before after, closeOrder order = before ++ b :: after ∧ b ∉ before ∧ b ∉ after :=
  exists_split_of_mem_nodup (mem_closeOrder order b) (nodup_firstOccurrences _)

/-! ### Quiet blocks (R60, R98) -/

theorem quiet_setEcho {s : State} {q : Pen} (h : Quiet s q) (p : Pen) (v : Option Nat) : Quiet (s.setEcho p v) q := h

def isPenBlock : CloseBlock → Bool
  | .penEngine _ => true
  | .tracker _ => false

/-- With both pens and trackers quiet, each pen clears its own echo and nothing else is done. -/
theorem foldl_blockClose_quiet {s : State} (h : ∀ p, Quiet s p) (order : List CloseBlock) :
    (closeOrder order).foldl State.blockClose s = { s with rewrite := { s.rewrite with
      echo := ⟨closedEcho s.pens.a s.rewrite.echo.a, closedEcho s.pens.b s.rewrite.echo.b⟩ } } := by
  have pens : ((closeOrder order).filter isPenBlock).Perm [.penEngine .a, .penEngine .b] :=
    (closeOrder_perm order).filter _
  rw [foldl_filter_of_rests State.blockClose (fun s => ∀ p, Quiet s p) isPenBlock ?rests ?keeps _ h]
  · rcases List.perm_pair.1 pens with one | other
    · rw [one]
      show (s.penFrameClose .a).penFrameClose .b = _
      rw [State.penFrameClose_quiet (h .a), State.penFrameClose_quiet (quiet_setEcho (h .b) ..)]
      rfl
    · rw [other]
      show (s.penFrameClose .b).penFrameClose .a = _
      rw [State.penFrameClose_quiet (h .b), State.penFrameClose_quiet (quiet_setEcho (h .a) ..)]
      rfl
  case rests =>
    intro s b quiet hb
    cases b with
    | penEngine p => cases hb
    | tracker p => exact State.trackerFrameClose_off (quiet p).2.2
  case keeps =>
    intro s b quiet hb q
    cases b with
    | penEngine p =>
      rw [show s.blockClose (.penEngine p) = _ from State.penFrameClose_quiet (quiet p)]
      exact quiet_setEcho (quiet q) ..
    | tracker p => cases hb

/-! ### One pen at the frame close of all the blocks (R58) -/

/-- R58: what a frame close makes of a pen in OFF, READY or HOLDING, and of one in SETTLED. -/
theorem pen_frameClose {s : State} {p : Pen} (order : List CloseBlock) :
    ((s.pen p).attempt = .off ∨ (s.pen p).attempt = .ready ∨ (∃ o, (s.pen p).attempt = .holding o) →
      ((closeOrder order).foldl State.blockClose s).pen p = s.pen p) ∧
    ∀ k b, (s.pen p).attempt = .settled k b → ((closeOrder order).foldl State.blockClose s).pen p =
      { s.pen p with attempt := if (s.pen p).record.mode = .continuous then
          (if b = true then .settled k false else .ready) else .settled k b } := by
  obtain ⟨before, after, split, notBefore, notAfter⟩ := closeOrder_split order (.penEngine p)
  have takes (h : (s.pen p).attempt ≠ .regionWait ∧ (s.pen p).attempt ≠ .regionCount) {e : PenEngine}
      (he : ∀ u : State, u.pen p = s.pen p → (u.penFrameClose p).pen p = e)
      (hr : e.attempt ≠ .regionWait ∧ e.attempt ≠ .regionCount) :
      ((closeOrder order).foldl State.blockClose s).pen p = e := by
    have taken := he _ (pen_foldl_blockClose notBefore h)
    rw [split, List.foldl_append, List.foldl_cons]
    exact (pen_foldl_blockClose notAfter (by
      rw [show (State.blockClose _ (.penEngine p)).pen p = e from taken]; exact hr)).trans taken
  have writes (u : State) : (u.writeEcho p none).pen p = u.pen p := congrArg (·.get p) (u.writeEcho_pens ..)
  refine ⟨fun h => takes ?_ (fun u hu => ?_) ?_, fun k b h => takes ?_ (fun u hu => ?_) ?_⟩
  · rcases h with h | h | ⟨o, h⟩ <;> rw [h] <;> exact ⟨nofun, nofun⟩
  · rcases h with h | h | ⟨o, h⟩
    · rw [State.penFrameClose_off (by rw [hu, h]), hu]
    · rw [State.penFrameClose_waits (.inl (by rw [hu, h])), writes, hu]
    · rw [State.penFrameClose_waits (.inr (.inr (.inr ⟨o, by rw [hu, h]⟩))), writes, hu]
  · rcases h with h | h | ⟨o, h⟩ <;> rw [h] <;> exact ⟨nofun, nofun⟩
  · rw [h]
    exact ⟨nofun, nofun⟩
  · rw [State.penFrameClose_settled (by rw [hu, h]), writes, State.pen_setPen, hu, PenEngine.settledClose_eq]
  · dsimp only
    split
    · split <;> exact ⟨nofun, nofun⟩
    · exact ⟨nofun, nofun⟩

/-- Settles O20: the head is removed, and a FRAME's removal is the frame close of the blocks. -/
theorem retireTakesTheHead : Obligations.RetireTakesTheHead := by
  refine ⟨fun s order e rest hf stays => ⟨fun hk => ?drawing, fun hk => ?dark⟩, fun s order e rest hf hk stays quiet => ?quiet,
    fun s order e rest hf hk stays => ?frame, fun s order e rest hf hk stays => ?blocks, fun s order hf => ?spurious⟩
  case drawing =>
    exact congrArg _ ((State.takeRetire_next hf stays order).trans (State.retired_drawing hk ..))
  case dark =>
    exact congrArg _ ((State.takeRetire_next hf stays order).trans (State.retired_seg_or_pass hk ..))
  case quiet =>
    have closing : ∀ p, Quiet (s.closing rest) p := quiet
    exact (exec_retire_frame hf hk stays order).trans (congrArg _ (foldl_blockClose_quiet closing order))
  case frame =>
    have keeps {γ : Type} (g : State → γ) (h : ∀ s b, g (State.blockClose s b) = g s) :
        g ((closeOrder order).foldl State.blockClose (s.closing rest)) = g (s.closing rest) := foldl_keeps _ g h _ _
    exact ⟨_, exec_retire_frame hf hk stays order, keeps State.beam State.blockClose_beam,
      keeps State.supervisor State.blockClose_supervisor, keeps State.link State.blockClose_link,
      keeps State.injection State.blockClose_injection, keeps State.decoder State.blockClose_decoder,
      keeps State.pending State.blockClose_pending, keeps State.draws State.blockClose_draws,
      fun p => pen_frameClose (s := s.closing rest) order⟩
  case blocks =>
    exact ⟨closeOrder order, closeOrder_perm order, closeOrder_of_perm, exec_retire_frame hf hk stays order⟩
  case spurious =>
    have none_left : s.takeRetire order = s.raiseFault .spuriousRetire 0#32 := by
      unfold State.takeRetire
      rw [hf]
    exact congrArg _ none_left

/-! ### One tracker at the frame close of all the blocks (R98 to R100) -/

/-- R98 to R100: a frame close makes `v` of the tracker record `u`. A request may write its claims and its last reported
position. -/
structure TrackerClosed (u v : Tracker) : Prop where
  off : u.state = .off → v = u
  settles : u.state ≠ .off → u.settle = true → v = { u with settle := false, tally := ⟨0, 0, 0, 0⟩ }
  seeks : u.state = .seeking → u.settle = false → hitsOf u.tally = 0 → v = { u with tally := ⟨0, 0, 0, 0⟩ }
  misses : u.state = .locked ∨ u.state = .coasting → u.settle = false → hitsOf u.tally = 0 →
    let missed := if u.state = .locked then 1 else u.missCount + 1
    (missed = u.coastLimit → v = { u with
      state := .seeking, missCount := 0, tally := ⟨0, 0, 0, 0⟩, trackClaim := v.trackClaim }) ∧
    (missed ≠ u.coastLimit → v = { u with state := .coasting, missCount := missed, tally := ⟨0, 0, 0, 0⟩ })
  corrects : u.state ≠ .off → u.settle = false → hitsOf u.tally ≠ 0 → v = { u with
    state := .locked, position := movedPoint u, missCount := 0, tally := ⟨0, 0, 0, 0⟩
    trackClaim := v.trackClaim, positionClaim := v.positionClaim, lastReported := v.lastReported }

/-- R98 to R100: what a frame close never changes of a tracker, and what it always clears. -/
theorem TrackerClosed.fields {u v : Tracker} (h : TrackerClosed u v) :
    (v.pitch = u.pitch ∧ v.coastLimit = u.coastLimit ∧ v.origin = u.origin ∧ v.stale = u.stale) ∧
      (u.state ≠ .off → u.settle = false → v.settle = false ∧ v.tally = ⟨0, 0, 0, 0⟩) := by
  by_cases hoff : u.state = .off
  · rw [h.off hoff]
    exact ⟨⟨rfl, rfl, rfl, rfl⟩, fun on => absurd hoff on⟩
  cases hs : u.settle with
  | true =>
    rw [h.settles hoff hs]
    exact ⟨⟨rfl, rfl, rfl, rfl⟩, nofun⟩
  | false =>
    by_cases hits : hitsOf u.tally = 0
    · have missing (hm : u.state = .locked ∨ u.state = .coasting) :
          (v.pitch = u.pitch ∧ v.coastLimit = u.coastLimit ∧ v.origin = u.origin ∧ v.stale = u.stale) ∧
            v.settle = false ∧ v.tally = ⟨0, 0, 0, 0⟩ := by
        obtain ⟨loses, coasts⟩ := h.misses hm hs hits
        by_cases limit : (if u.state = .locked then 1 else u.missCount + 1) = u.coastLimit
        · rw [loses limit]
          exact ⟨⟨rfl, rfl, rfl, rfl⟩, hs, rfl⟩
        · rw [coasts limit]
          exact ⟨⟨rfl, rfl, rfl, rfl⟩, hs, rfl⟩
      cases hst : u.state with
      | off => exact absurd hst hoff
      | seeking =>
        rw [h.seeks hst hs hits]
        exact ⟨⟨rfl, rfl, rfl, rfl⟩, fun _ _ => ⟨hs, rfl⟩⟩
      | locked => exact (missing (.inl hst)).imp_right fun h _ _ => h
      | coasting => exact (missing (.inr hst)).imp_right fun h _ _ => h
    · rw [h.corrects hoff hs hits]
      exact ⟨⟨rfl, rfl, rfl, rfl⟩, fun _ _ => ⟨hs, rfl⟩⟩

theorem State.tracker_trackerFrameClose (s : State) (p : Pen) :
    TrackerClosed (s.tracker p) ((s.trackerFrameClose p).tracker p) := by
  obtain ⟨off, settles, seeks, unlocks, coasts, corrects⟩ := s.trackerFrameClose_cases p
  have lost {t : State} {w : Tracker} (ht : t.tracker p = w) (u : Tracker) : (t.lost p u).tracker p =
      { w with state := .seeking, missCount := 0, trackClaim := ((t.lost p u).tracker p).trackClaim } := by
    have written : ({ t with trackers := t.trackers.set p { t.tracker p with state := .seeking, missCount := 0 } } :
        State).tracker p = { w with state := .seeking, missCount := 0 } := by
      rw [← ht]
      exact Pair.get_set_same ..
    unfold State.lost
    rw [tracker_afterTrackRequest, written]
  refine ⟨fun h => congrArg (·.tracker p) (off h), fun h hs => ?_, fun h hs hits => ?_, fun h hs hits => ?_,
    fun h hs hits => ?_⟩
  · rw [settles h hs]
    exact State.tracker_tallied _
  · rw [seeks h hs hits]
    exact State.tracker_tallied _
  · rcases h with h | h
    · have told : (afterUnlock (s.tallied p { s.tracker p with state := .coasting, missCount := 1 }) p).tracker p =
          { s.tracker p with state := .coasting, missCount := 1, tally := ⟨0, 0, 0, 0⟩ } :=
        (congrArg (·.get p) (trackers_afterUnlock ..)).trans (State.tracker_tallied _)
      rw [unlocks h hs hits, if_pos h]
      refine ⟨fun limit => ?_, fun more => ?_⟩
      · rw [if_pos limit.symm, lost told]
      · rw [if_neg (Ne.symm more), told]
    · have counted := State.tracker_tallied (s := s) (p := p)
        { s.tracker p with missCount := (s.tracker p).missCount + 1 }
      rw [coasts h hs hits, if_neg (by rw [h]; exact nofun)]
      refine ⟨fun limit => ?_, fun more => ?_⟩
      · rw [if_pos limit, lost counted]
      · rw [if_neg more, counted, h]
  · rw [corrects h hs hits]
    split
    · rw [State.tracker_relocked]
    · rw [State.tracker_positionRequest, State.tracker_relocked]

/-- R98: what the frame close of all the blocks makes of a tracker whose pen does not gather. -/
theorem trackerClosed_foldl {s : State} {p : Pen} (h : (s.pen p).attempt ≠ .gathering) (order : List CloseBlock) :
    TrackerClosed (s.tracker p) (((closeOrder order).foldl State.blockClose s).tracker p) := by
  obtain ⟨before, after, split, notBefore, notAfter⟩ := closeOrder_split order (.tracker p)
  obtain ⟨tracker, idle⟩ := tracker_foldl_blockClose notBefore h
  have kept := (tracker_foldl_blockClose notAfter (s := State.blockClose _ (.tracker p))
    (State.trackerFrameClose_not_gathering idle)).1
  rw [split, List.foldl_append, List.foldl_cons, kept, ← tracker]
  exact State.tracker_trackerFrameClose ..

/-- Settles O21: each tracker takes the frame close once, and the other blocks leave it. -/
theorem frameCloseCorrectsTheTrackers : Obligations.FrameCloseCorrectsTheTrackers := by
  refine ⟨fun s order e rest hf hk stays idle => ⟨_, exec_retire_frame hf hk stays order, fun p => ?_⟩,
    State.trackerFrameClose_cases⟩
  intro u v hits missed moved
  have closed : TrackerClosed u v := trackerClosed_foldl (s := s.closing rest) (idle p) order
  obtain ⟨⟨pitch, coastLimit, origin, stale⟩, cleared⟩ := closed.fields
  refine ⟨pitch, coastLimit, origin, stale, closed.off, closed.settles, cleared, closed.seeks, fun h hs none_struck => ?_,
    fun h hs struck => ?_⟩
  · obtain ⟨loses, coasts⟩ := closed.misses h hs none_struck
    refine ⟨?_, fun limit => ?_, coasts⟩
    · by_cases limit : missed = u.coastLimit
      · rw [loses limit]
      · rw [coasts limit]
    · rw [loses limit]
      exact ⟨rfl, rfl⟩
  · rw [closed.corrects h hs struck]
    exact ⟨rfl, rfl, rfl⟩

end Sys2Proof.Machine
end

section
/-! The lists of a weighing (O23). -/

namespace Sys2Proof.Machine

open Sys2Proof.Stated

/-! ### Counting ones, and the first of a list -/

theorem onesIn_eq_length {k : Nat} (x : BitVec k) (n : Nat) :
    onesIn x n = ((List.range n).filter fun i => x.getLsbD i).length := by
  induction n with
  | zero => rfl
  | succ n ih =>
    rw [onesIn, ih, List.range_succ, List.filter_append, List.length_append]
    cases h : x.getLsbD n <;> simp [h]

/-- The first of a list has none before it, when what goes before nothing goes before nothing in turn. -/
theorem bestOf_best {α : Type} {better : α → α → Bool} (asymm : ∀ x y, better x y = true → better y x = false)
    (negTrans : ∀ x y z, better x y = false → better y z = false → better x z = false) {l : List α} {r : α}
    (h : bestOf better l = some r) : ∀ d ∈ l, better d r = false := by
  have irrefl (x : α) : better x x = false := by
    cases hx : better x x with
    | false => rfl
    | true => exact hx.symm.trans (asymm x x hx)
  induction l generalizing r with
  | nil => cases h
  | cons c cs ih =>
    unfold bestOf at h
    cases hbest : bestOf better cs with
    | none =>
      rw [hbest] at h
      cases h
      rw [(bestOf_eq_none_iff better cs).1 hbest]
      exact fun d hd => List.mem_singleton.1 hd ▸ irrefl d
    | some d =>
      rw [hbest] at h
      dsimp only at h
      have best := ih hbest
      cases hdc : better d c with
      | true =>
        rw [hdc] at h
        obtain rfl : d = r := Option.some.inj h
        exact fun x hx => (List.mem_cons.1 hx).elim (fun e => e ▸ asymm d c hdc) (best x)
      | false =>
        rw [hdc] at h
        obtain rfl : c = r := Option.some.inj h
        exact fun x hx => (List.mem_cons.1 hx).elim (fun e => e ▸ irrefl x)
          fun hx => negTrans x d c (best x hx) hdc

/-! ### The ranking (R83) -/

/-- R83: `d` does not rank before `r`. -/
theorem State.ranksBefore_eq_false_iff (s : State) (w : Nat) (d r : Candidate) :
    s.ranksBefore w d r = false ↔
      (s.image d.key.segment).priority < (s.image r.key.segment).priority ∨
        (s.image d.key.segment).priority = (s.image r.key.segment).priority ∧
          (onesIn d.history w < onesIn r.history w ∨
            onesIn d.history w = onesIn r.history w ∧ r.firstSeen ≤ d.firstSeen) := by
  rw [← Bool.not_eq_true]
  simp only [State.ranksBefore, Bool.or_eq_true, Bool.and_eq_true, decide_eq_true_eq]
  omega

theorem State.rankedFirst_best {s : State} {w : Nat} {cs : List Candidate} {r : Candidate}
    (h : s.rankedFirst w cs = some r) : ∀ d ∈ cs, s.ranksBefore w d r = false := by
  refine bestOf_best (fun x y hxy => ?_) (fun x y z hxy hyz => ?_) h
  · rw [State.ranksBefore_eq_false_iff]
    simp only [State.ranksBefore, Bool.or_eq_true, Bool.and_eq_true, decide_eq_true_eq] at hxy
    omega
  · rw [State.ranksBefore_eq_false_iff] at hxy hyz ⊢
    omega

/-! ### The list weighed and the list that qualifies (R80 to R82) -/

theorem State.weighedList_eq (s : State) (p : Pen) :
    s.weighedList p = (s.pen p).candidates.filterMap fun c =>
      if c.shifted.history = 0#8 then none else s.revalidate (s.pen p).record.classes c.shifted := by
  unfold State.weighedList shiftHistories
  rw [List.filterMap_filter, List.filterMap_map]
  refine List.filterMap_congr fun c _ => ?_
  by_cases h : c.shifted.history = 0#8 <;> simp [h]

theorem PenEngine.qualify_cycle_off {e : PenEngine} (h : e.record.cycle = false) (cs : List Candidate) :
    e.qualify cs = (cs.filter e.record.quotaMet, e.exclusions) := by
  unfold PenEngine.qualify
  rw [h]
  rfl

theorem PenEngine.qualify_cycle_on {e : PenEngine} (h : e.record.cycle = true) (cs : List Candidate) :
    e.qualify cs =
      let met := cs.filter e.record.quotaMet
      let free := met.filter fun c => decide (c.key ∉ e.exclusions)
      if free = [] ∧ met ≠ [] then (met, []) else (free, e.exclusions) := by
  have excluded : (fun c : Candidate => !e.exclusions.contains c.key) = fun c => decide (c.key ∉ e.exclusions) := by
    funext c
    simp
  unfold PenEngine.qualify
  rw [h, excluded]
  dsimp only
  simp only [if_true, Bool.and_eq_true, Bool.not_eq_true', List.isEmpty_iff, List.isEmpty_eq_false_iff]

/-- Settles O23: each list of a weighing is the list described, and the ranking is the order described. -/
theorem weighingFormsItsLists : Obligations.WeighingFormsItsLists := by
  intro s p e shifted kept
  refine ⟨?_, fun cs => ?_⟩
  · rw [s.weighedList_eq p]
    refine List.filterMap_congr fun c _ => ?_
    have same : c.shifted.history = shifted c := rfl
    unfold kept State.revalidate
    dsimp only
    rw [same]
    by_cases gone : shifted c = 0#8
    · rw [if_pos gone, if_pos (.inl gone)]
    rw [if_neg gone]
    by_cases eligible : (s.image c.key.segment).detectable = true ∧
        e.record.classes.getLsbD (s.image c.key.segment).cls = true
    · have passes : ¬ (shifted c = 0#8 ∨ (s.image c.key.segment).detectable = false ∨
          e.record.classes.getLsbD (s.image c.key.segment).cls = false) := by
        simp [gone, eligible]
      rw [if_neg passes]
      refine (if_pos (by rw [Bool.and_eq_true]; exact eligible)).trans ?_
      dsimp only [Candidate.shifted]
      cases (s.image c.key.segment).kind <;> rfl
    · have fails : shifted c = 0#8 ∨ (s.image c.key.segment).detectable = false ∨
          e.record.classes.getLsbD (s.image c.key.segment).cls = false := by
        rw [← Bool.not_eq_true, ← Bool.not_eq_true, ← not_and_or]
        exact .inr eligible
      rw [if_pos fails]
      exact if_neg (by rw [Bool.and_eq_true]; exact eligible)
  · intro ones met free
    have count (c : Candidate) : onesIn c.history e.record.w = ones c := onesIn_eq_length ..
    have quota : cs.filter e.record.quotaMet = met :=
      List.filter_congr fun c _ => by rw [ModeRecord.quotaMet, count]
    refine ⟨fun h => ?_, fun h => ?_, bestOf_eq_none_iff .., fun r hr => ⟨bestOf_mem hr, fun d hd => ?_⟩⟩
    · rw [PenEngine.qualify_cycle_off h, quota]
    · rw [PenEngine.qualify_cycle_on h, quota]
    · rw [← count, ← count]
      exact (s.ranksBefore_eq_false_iff ..).1 (State.rankedFirst_best hr d hd)

end Sys2Proof.Machine
end

section
/-! The end of a weighing (O24). -/

namespace Sys2Proof.Machine

open Sys2Proof.Stated

/-! ### The three ends (R64, R84, R88) -/

/-- R84: the engine of pen p with its list weighed and its frame counted. -/
def weighedPen (s : State) (p : Pen) : PenEngine :=
  { s.pen p with frameCount := (s.pen p).frameCount + 1, candidates := s.weighedList p }

/-- R82: the qualified set of pen p, and its exclusion list after any wrap. -/
def State.qualified (s : State) (p : Pen) : List Candidate × List Key := (s.pen p).qualify (s.weighedList p)

/-- R88: the engine of pen p with winner `r` confirmed. -/
def confirmedPen (s : State) (p : Pen) (r : Candidate) : PenEngine :=
  { weighedPen s p with
    candidates := []
    exclusions := if (s.pen p).record.cycle = true then withExclusion (s.qualified p).2 r.key
      else (s.qualified p).2 }

/-- R88: the state in which the winner `r` of pen p is claimed. -/
def State.confirmed (s : State) (p : Pen) (r : Candidate) : State :=
  { s with
    pens := s.pens.set p (confirmedPen s p r)
    rewrite := { s.rewrite with echo := s.rewrite.echo.set p none } }

theorem PenEngine.qualify_exclusions_of_nil {e : PenEngine} {cs : List Candidate} (h : (e.qualify cs).1 = []) :
    (e.qualify cs).2 = e.exclusions := by
  cases hc : e.record.cycle with
  | false => rw [PenEngine.qualify_cycle_off hc]
  | true =>
    rw [PenEngine.qualify_cycle_on hc] at h ⊢
    dsimp only at h ⊢
    split at h
    · next wraps => exact absurd h wraps.2
    · next stays => rw [if_neg stays]

theorem Mode.afterSpan_eq (m : Mode) : m.afterSpan = if m = .continuous then .ready else .settled none false := by
  cases m <;> rfl

/-- R64: a miss reads of the engine that it finds only whether it holds, and the channel. -/
theorem afterMiss_setPen {s : State} {p : Pen} {e : PenEngine} (he : e.attempt.isHolding = (s.pen p).attempt.isHolding)
    (hc : e.record.channel = (s.pen p).record.channel) (f : PenEngine) (reason : MissReason) (next : AttemptState) :
    afterMiss (s.setPen p e) p f reason next = afterMiss s p f reason next := by
  unfold afterMiss
  rw [State.hasRoom_setPen s p he, State.pen_setPen, hc]
  dsimp only [State.setPen]
  rw [Pair.set_set]
  rfl

section
variable {s : State} {p : Pen}

theorem State.rankedFirst_none_iff (w : Nat) (cs : List Candidate) : s.rankedFirst w cs = none ↔ cs = [] :=
  bestOf_eq_none_iff ..

/-- R84: with nothing qualified, the weighing leaves the exclusion list. -/
theorem State.weighed_of_nil (h : (s.qualified p).1 = []) : s.weighed p = s.setPen p (weighedPen s p) := by
  unfold State.weighed
  rw [PenEngine.qualify_exclusions_of_nil h]
  rfl

theorem State.writeEcho_eq (v : Option Nat) : s.writeEcho p v = { s with
    rewrite := if (s.pen p).record.echo = true then { s.rewrite with echo := s.rewrite.echo.set p v }
      else s.rewrite } := by
  unfold State.writeEcho
  split <;> rfl

theorem State.weigh_stays (h : (s.qualified p).1 = [])
    (hspan : (s.pen p).frameCount + 1 ≠ (s.pen p).record.span) :
    s.weigh p = { s with
      pens := s.pens.set p (weighedPen s p)
      rewrite := if (s.pen p).record.echo = true then
          { s.rewrite with
            echo := s.rewrite.echo.set p
              ((s.rankedFirst (s.pen p).record.w (s.weighedList p)).map fun c => c.key.segment) }
        else s.rewrite } := by
  rcases s.weigh_cases p with ⟨r, hr, -⟩ | ⟨-, ⟨hs, -⟩ | ⟨-, heq⟩⟩
  · exact absurd (hr.symm.trans ((State.rankedFirst_none_iff ..).2 h)) nofun
  · exact absurd hs hspan
  · rw [heq, State.weighed_of_nil h, State.writeEcho_eq, State.pen_setPen]
    rfl

theorem State.weigh_misses (h : (s.qualified p).1 = [])
    (hspan : (s.pen p).frameCount + 1 = (s.pen p).record.span) :
    s.weigh p = afterMiss s p (weighedPen s p) .span
      (if (s.pen p).record.mode = .continuous then .ready else .settled none false) := by
  rcases s.weigh_cases p with ⟨r, hr, -⟩ | ⟨-, ⟨-, heq⟩ | ⟨hs, -⟩⟩
  · exact absurd (hr.symm.trans ((State.rankedFirst_none_iff ..).2 h)) nofun
  · rw [heq, State.weighed_of_nil h, endMiss_eq_afterMiss, State.pen_setPen, Mode.afterSpan_eq]
    exact afterMiss_setPen (e := weighedPen s p) rfl rfl ..
  · exact absurd hspan hs

theorem State.weigh_confirms {r : Candidate} (hr : s.rankedFirst (s.pen p).record.w (s.qualified p).1 = some r) :
    s.weigh p = (s.confirmed p r).claimOutcome p (.winner r.key r.strike (decide ((s.qualified p).2 ≠ []))) := by
  have cycled (keys : List Key) : (!keys.isEmpty) = decide (keys ≠ []) := by cases keys <;> rfl
  rcases s.weigh_cases p with ⟨r', hr', heq⟩ | ⟨hnone, -⟩
  · obtain rfl : r = r' := Option.some.inj (hr.symm.trans hr')
    have pen : (s.weighed p).pen p = { weighedPen s p with exclusions := (s.qualified p).2 } := Pair.get_set_same ..
    have written : ((s.weighed p).setPen p (confirmedPen s p r)).setEcho p none = s.confirmed p r := by
      unfold State.weighed State.confirmed
      dsimp only [State.setPen, State.setEcho]
      rw [Pair.set_set]
    rw [heq, ← written]
    unfold State.confirm confirmedPen
    dsimp only
    rw [pen, cycled, addExclusion_eq_withExclusion]
    rfl
  · exact absurd (hr.symm.trans hnone) nofun

theorem State.room_confirmed (ha : (s.pen p).attempt = .gathering) (r : Candidate) : Room (s.confirmed p r) ↔ Room s := by
  have room : (s.setPen p (confirmedPen s p r)).hasRoom = s.hasRoom :=
    State.hasRoom_setPen s p (by rw [ha]; exact congrArg _ ha)
  rw [room_iff, room_iff, ← room]
  rfl

theorem State.attempt_confirmed (r : Candidate) : ((s.confirmed p r).pen p).attempt = (s.pen p).attempt := by
  have pen : (s.confirmed p r).pen p = confirmedPen s p r := Pair.get_set_same ..
  rw [pen]
  rfl

theorem State.weigh_holds {r : Candidate} (ha : (s.pen p).attempt = .gathering) (room : ¬ Room s)
    (hr : s.rankedFirst (s.pen p).record.w (s.qualified p).1 = some r) :
    s.weigh p = { s.confirmed p r with pens := s.pens.set p { confirmedPen s p r with
      attempt := .holding (.winner r.key r.strike (decide ((s.qualified p).2 ≠ []))) } } := by
  rw [State.weigh_confirms hr, State.claimOutcome_full _ p _ ((not_room_iff _).1 fun h => room ((State.room_confirmed ha r).1 h))]
  have pen : (s.confirmed p r).pen p = confirmedPen s p r := Pair.get_set_same ..
  rw [pen]
  dsimp only [State.setPen, State.confirmed]
  rw [Pair.set_set]

theorem State.weigh_delivers {r : Candidate} (ha : (s.pen p).attempt = .gathering) (room : Room s)
    (hr : s.rankedFirst (s.pen p).record.w (s.qualified p).1 = some r) :
    s.weigh p = (s.confirmed p r).deliver p (.winner r.key r.strike (decide ((s.qualified p).2 ≠ []))) := by
  rw [State.weigh_confirms hr, State.claimOutcome_room _ p _ ((room_iff _).1 ((State.room_confirmed ha r).2 room))]

theorem State.weigh_delivers_menu {r : Candidate} {n k : Nat} (ha : (s.pen p).attempt = .gathering) (room : Room s)
    (hr : s.rankedFirst (s.pen p).record.w (s.qualified p).1 = some r)
    (hk : (s.image r.key.segment).kind = .menu n k) :
    DeliversMenu (s.confirmed p r) p r.key n k (decide ((s.qualified p).2 ≠ [])) (s.weigh p) := by
  rw [State.weigh_delivers ha room hr, State.deliver_menu (s := s.confirmed p r) hk]
  exact State.delivers_menu (State.segment_ne_zero (s := s) (by rw [hk]; exact nofun)) ..

theorem State.weigh_delivers_pick {r : Candidate} {drag : Bool} {b : Option Bound}
    (ha : (s.pen p).attempt = .gathering) (room : Room s)
    (hr : s.rankedFirst (s.pen p).record.w (s.qualified p).1 = some r)
    (hk : (s.image r.key.segment).kind = .drawing drag b) :
    DeliversPick (s.confirmed p r) p r.key r.strike (decide ((s.qualified p).2 ≠ [])) drag (s.weigh p) := by
  have attempt : ((s.confirmed p r).pen p).attempt = .gathering := (State.attempt_confirmed r).trans ha
  have dragOf : drag = ((s.confirmed p r).image r.key.segment).drag := by
    show drag = (s.image r.key.segment).drag
    unfold Image.drag
    rw [hk]
  have kind : ((s.confirmed p r).image r.key.segment).kind = .drawing drag b := hk
  rw [State.weigh_delivers ha room hr, State.deliver_pick (by rw [kind]; exact nofun), dragOf]
  exact State.delivers_pick (State.segment_ne_zero (s := s) (by rw [hk]; exact nofun))
    (by rw [attempt]; exact ⟨nofun, nofun⟩) ..

/-- R49, R63: a winner that is claimed outside a region attempt leaves the echo registers. -/
theorem State.rewrite_claimOutcome (hr : (s.pen p).attempt ≠ .regionWait ∧ (s.pen p).attempt ≠ .regionCount)
    (key : Key) (strike : Point) (cycled : Bool) :
    (s.claimOutcome p (.winner key strike cycled)).rewrite = s.rewrite := by
  cases room : s.hasRoom with
  | false =>
    rw [State.claimOutcome_full _ _ _ room]
    rfl
  | true =>
    rw [State.claimOutcome_room _ _ _ room]
    by_cases hm : ∃ n k, (s.image key.segment).kind = .menu n k
    · obtain ⟨n, k, hm⟩ := hm
      obtain ⟨frame, -⟩ := s.deliverMenu_cases p key n k cycled
      rw [State.deliver_menu hm, frame]
    · obtain ⟨frame, -⟩ := State.deliverPick_cases hr key strike cycled
      rw [State.deliver_pick fun n k h => hm ⟨n, k, h⟩, frame]

/-- R49, R88: a winner clears the echo. -/
theorem State.echo_weigh_winner {r : Candidate} (ha : (s.pen p).attempt = .gathering)
    (hr : s.rankedFirst (s.pen p).record.w (s.qualified p).1 = some r) :
    (s.weigh p).rewrite.echo.get p = none := by
  rw [State.weigh_confirms hr, State.rewrite_claimOutcome (by rw [State.attempt_confirmed, ha]; exact ⟨nofun, nofun⟩)]
  exact Pair.get_set_same ..

theorem State.exists_winner (h : (s.qualified p).1 ≠ []) :
    ∃ r, s.rankedFirst (s.pen p).record.w (s.qualified p).1 = some r :=
  Option.ne_none_iff_exists'.1 fun hnone => h ((State.rankedFirst_none_iff ..).1 hnone)

theorem State.blockClose_gathering (ha : (s.pen p).attempt = .gathering) :
    s.blockClose (.penEngine p) = s.weigh p := by
  show s.penFrameClose p = _
  unfold State.penFrameClose
  rw [ha]

end

/-! ### The weighing among the blocks of a frame close (log 3) -/

theorem otherPen_or (p q : Pen) : q = p ∨ q = otherPen p := by cases p <;> cases q <;> simp [otherPen]

/-- With the other pen quiet and both trackers OFF, the blocks but pen p's engine do nothing but to clear the other
pen's echo. -/
theorem foldl_blockClose_others {p : Pen} {bs : List CloseBlock} (hbs : .penEngine p ∉ bs) {s : State}
    (quiet : Quiet s (otherPen p)) (off : (s.tracker p).state = .off) :
    ∃ v, bs.foldl State.blockClose s = s.setEcho (otherPen p) v := by
  have kept (u : State) : u = u.setEcho (otherPen p) (u.rewrite.echo.get (otherPen p)) := by
    unfold State.setEcho
    rw [Pair.set_get]
  induction bs generalizing s with
  | nil => exact ⟨_, kept s⟩
  | cons b bs ih =>
    obtain ⟨new, rest⟩ := not_or.1 (mt List.mem_cons.2 hbs)
    have one : ∃ v, s.blockClose b = s.setEcho (otherPen p) v := by
      cases b with
      | penEngine q =>
        obtain rfl := (otherPen_or p q).resolve_left fun h => new (by rw [h])
        exact ⟨_, State.penFrameClose_quiet quiet⟩
      | tracker q =>
        have qoff : (s.tracker q).state = .off := by
          rcases otherPen_or p q with rfl | rfl
          · exact off
          · exact quiet.2.2
        exact ⟨_, (State.trackerFrameClose_off qoff).trans (kept s)⟩
    obtain ⟨v, hv⟩ := one
    obtain ⟨w, hw⟩ := ih rest (s := s.setEcho (otherPen p) v) (quiet_setEcho quiet ..) off
    refine ⟨w, ?_⟩
    rw [List.foldl_cons, hv, hw]
    dsimp only [State.setEcho]
    rw [Pair.set_set]

/-- R49: an echo that is none stays none through the other blocks. -/
theorem echo_blockClose {s : State} {p : Pen} {b : CloseBlock} (hb : b ≠ .penEngine p)
    (h : s.rewrite.echo.get p = none) : (s.blockClose b).rewrite.echo.get p = none := by
  by_cases own : ownerOf b = p
  · cases b with
    | penEngine q => exact absurd (congrArg CloseBlock.penEngine own) hb
    | tracker q =>
      obtain rfl : q = p := own
      show (s.trackerFrameClose q).rewrite.echo.get q = none
      rcases s.trackerFrameClose_penParts q with same | told
      · rw [show (s.trackerFrameClose q).rewrite = s.rewrite from congrArg Prod.snd same]
        exact h
      · rw [show (s.trackerFrameClose q).rewrite = _ from congrArg Prod.snd told]
        dsimp only [State.penParts]
        unfold afterUnlock
        split
        · exact Pair.get_set_same ..
        · exact h
  · rw [(samePen_blockClose s own).echo, h]

theorem echo_foldl_blockClose {p : Pen} {bs : List CloseBlock} (hbs : .penEngine p ∉ bs) {s : State}
    (h : s.rewrite.echo.get p = none) : (bs.foldl State.blockClose s).rewrite.echo.get p = none := by
  induction bs generalizing s with
  | nil => exact h
  | cons b bs ih =>
    obtain ⟨new, rest⟩ := not_or.1 (mt List.mem_cons.2 hbs)
    exact ih rest (echo_blockClose (Ne.symm new) h)

/-- What the frame close of all the blocks leaves of a weighing `t` of pen p. -/
structure WeighingClosed (p : Pen) (t u : State) : Prop where
  echo : t.rewrite.echo.get p = none → u.rewrite.echo.get p = none
  rest : (t.tracker p).state = .off →
    u.pen p = t.pen p ∧ u.notices = t.notices ∧ u.rewrite.echo.get p = t.rewrite.echo.get p

/-- With the other pen quiet and both trackers OFF, the frame close of all the blocks is the weighing, from a state in
which at most the other pen's echo differs. -/
theorem weighing_foldl {s : State} {p : Pen} (quiet : Quiet s (otherPen p)) (off : (s.tracker p).state = .off)
    (ha : (s.pen p).attempt = .gathering) (order : List CloseBlock) :
    ∃ v, WeighingClosed p ((s.setEcho (otherPen p) v).weigh p) ((closeOrder order).foldl State.blockClose s) := by
  obtain ⟨before, after, split, notBefore, notAfter⟩ := closeOrder_split order (.penEngine p)
  obtain ⟨v, hv⟩ := foldl_blockClose_others notBefore quiet off
  have weighs := State.blockClose_gathering (s := s.setEcho (otherPen p) v) ha
  have same := (samePen_keeps (otherPen p) (s.setEcho (otherPen p) v)).weigh (s.setEcho (otherPen p) v) p (otherPen_ne p).symm
    ha (.refl ..)
  refine ⟨v, ?_⟩
  rw [split, List.foldl_append, List.foldl_cons, hv, weighs]
  refine ⟨echo_foldl_blockClose notAfter, fun rests => ?_⟩
  have stays : Quiet ((s.setEcho (otherPen p) v).weigh p) (otherPen p) := by
    unfold Quiet
    rw [same.pen, same.tracker]
    exact quiet
  obtain ⟨w, hw⟩ := foldl_blockClose_others notAfter stays rests
  rw [hw]
  exact ⟨rfl, rfl, Pair.get_set_other _ (otherPen_ne p).symm w⟩

/-- Settles O24: each end of the weighing, and the frame close in which it is the only change. -/
theorem frameCloseEndsTheWeighing : Obligations.FrameCloseEndsTheWeighing := by
  refine ⟨fun s p order entry rest hf hk stays quiet off ha => ?_, fun s p ha => ?_⟩
  · intro e cs q weighed
    obtain ⟨v, closed⟩ := weighing_foldl (s := s.closing rest) quiet off ha order
    refine ⟨_, exec_retire_frame hf hk stays order, fun hq hspan => ?_, fun hq hspan => ?_, fun hq => ?_⟩
    · have stays := State.weigh_stays (s := (s.closing rest).setEcho (otherPen p) v) (p := p) hq hspan
      obtain ⟨pen, notices, echo⟩ := closed.rest (by rw [stays]; exact off)
      rw [stays] at pen notices echo
      refine ⟨notices, pen.trans (Pair.get_set_same ..), echo.trans ?_⟩
      dsimp only
      split
      · next on => exact (Pair.get_set_same ..).trans (if_pos on).symm
      · next on => exact (Pair.get_set_other _ (otherPen_ne p).symm v).trans (if_neg on).symm
    · have misses := State.weigh_misses (s := (s.closing rest).setEcho (otherPen p) v) (p := p) hq hspan
      obtain ⟨pen, notices, echo⟩ := closed.rest (by rw [misses]; exact off)
      rw [misses] at pen notices echo
      exact ⟨echo.trans (Pair.get_set_same ..), pen.trans (Pair.get_set_same ..), notices⟩
    · obtain ⟨r, hr⟩ := State.exists_winner (s := (s.closing rest).setEcho (otherPen p) v) hq
      have cleared := State.echo_weigh_winner (s := (s.closing rest).setEcho (otherPen p) v) ha hr
      refine ⟨r, hr, closed.echo cleared, fun room => ?_, fun b room hk => ?_⟩
      · have holds := State.weigh_holds (s := (s.closing rest).setEcho (otherPen p) v) ha room hr
        obtain ⟨pen, notices, -⟩ := closed.rest (by rw [holds]; exact off)
        rw [holds] at pen notices
        exact ⟨notices, pen.trans (Pair.get_set_same ..)⟩
      · obtain ⟨delivered, -⟩ :=
          State.weigh_delivers_pick (s := (s.closing rest).setEcho (otherPen p) v) ha room hr hk
        have base : (((s.closing rest).setEcho (otherPen p) v).confirmed p r).pen p =
            confirmedPen ((s.closing rest).setEcho (otherPen p) v) p r := Pair.get_set_same ..
        rw [base] at delivered
        obtain ⟨pen, notices, -⟩ := closed.rest (by rw [delivered]; exact off)
        rw [delivered] at pen notices
        refine ⟨pen.trans (Pair.get_set_same ..), notices.trans ?_⟩
        unfold routeOf
        rw [base]
        rfl
  · intro e cs q weighed top t
    have weighs : t = s.weigh p := State.blockClose_gathering ha
    refine ⟨fun hq hspan => weighs.trans (State.weigh_stays hq hspan),
      fun hq hspan => weighs.trans (State.weigh_misses hq hspan), fun hq => ?_⟩
    obtain ⟨r, hr⟩ := State.exists_winner hq
    refine ⟨r, hr, fun room => weighs.trans (State.weigh_holds ha room hr), fun n k room hk => ?_,
      fun drag b room hk => ?_⟩
    · rw [weighs]
      exact State.weigh_delivers_menu ha room hr hk
    · rw [weighs]
      exact State.weigh_delivers_pick ha room hr hk

end Sys2Proof.Machine
end

section
/-! Strikes and hits (O25 to O28). -/

namespace Sys2Proof.Machine

open Sys2Proof.Stated

/-! ### Where a strike goes (R16, R17) -/

theorem strikeTarget_eq_find? (l : List Entry) : strikeTarget l = l.find? fun e => e.kind.drawingKind := by
  induction l with
  | nil => rfl
  | cons e l ih =>
    unfold strikeTarget
    rw [List.find?_cons, ih]
    cases e.kind.drawingKind <;> rfl

theorem strikeTarget_eq_none {l : List Entry} (h : ∀ x ∈ l, ¬ DrawingKind x) : strikeTarget l = none := by
  rw [strikeTarget_eq_find?, List.find?_eq_none]
  exact fun x hx => (drawingKind_iff x).not.1 (h x hx)

theorem strikeTarget_append {before after : List Entry} {e : Entry} (h : ∀ x ∈ before, ¬ DrawingKind x)
    (he : DrawingKind e) : strikeTarget (before ++ e :: after) = some e := by
  have skipped := strikeTarget_eq_none h
  rw [strikeTarget_eq_find?] at skipped ⊢
  rw [List.find?_append, skipped, List.find?_cons, (drawingKind_iff e).1 he]
  rfl

section
variable {s : State} {p : Pen} {e : Entry}

/-- R16: a strike that finds no entry of drawing kind and no afterglow is stray. -/
theorem State.takeStrike_stray (h : ∀ x ∈ s.beam.flight, ¬ DrawingKind x) (ha : s.beam.afterglow = none) :
    s.takeStrike p = s := by
  unfold State.takeStrike
  rw [strikeTarget_eq_none h, ha]

/-- R17: a target whose struck flag is set takes no second strike. -/
theorem State.takeStrike_again (h : strikeTarget s.beam.flight = some e ∨
    strikeTarget s.beam.flight = none ∧ s.beam.afterglow = some e) (struck : e.struck.get p = true) :
    s.takeStrike p = s := by
  unfold State.takeStrike
  rcases h with target | ⟨target, glow⟩
  · rw [target]
    exact if_pos struck
  · rw [target, glow]
    exact if_pos struck

theorem State.deliverStrike_cases (s : State) (p : Pen) (e : Entry) :
    s.deliverStrike p e = s ∨ s.deliverStrike p e = s.hit p e.key e.endPt ∨
      ∃ arm k, s.deliverStrike p e = s.crossHit p arm k := by
  unfold State.deliverStrike
  split
  · split
    · exact .inr (.inl rfl)
    · exact .inl rfl
  · split
    · exact .inr (.inr ⟨_, _, rfl⟩)
    · exact .inl rfl

/-- R17: a target that cannot be picked, and a dot of the other pen's cross, deliver nothing. -/
theorem State.deliverStrike_mute (h : (e.origin = .stream ∧ (e.kind = .move ∨ e.mask.get p = false)) ∨
    ∃ arm k, e.origin = .cross (otherPen p) arm k) : s.deliverStrike p e = s := by
  unfold State.deliverStrike
  rcases h with ⟨origin, nothing⟩ | ⟨arm, k, origin⟩
  · rw [origin]
    refine if_neg fun eligible => nothing.elim eligible.1 fun masked => ?_
    rw [masked] at eligible
    exact absurd eligible.2 nofun
  · rw [origin]
    exact if_neg (otherPen_ne p)

end

/-- Settles O25: the target is the oldest entry of drawing kind, else the afterglow record. -/
theorem strikeIsAttributed : Obligations.StrikeIsAttributed := by
  intro s p before after e mute
  refine ⟨fun none_drawn dark => congrArg _ (State.takeStrike_stray none_drawn dark), fun hb he hf => ⟨fun struck => ?_,
    fun clear silent => ?_⟩, fun none_drawn glow => ⟨fun struck => ?_, fun clear silent => ?_⟩⟩
  · exact congrArg _ (State.takeStrike_again (.inl (by rw [hf, strikeTarget_append hb he])) struck)
  · have strikes : Strikes s p e _ := ⟨clear, .inl ⟨before, after, hb, he, hf, rfl⟩⟩
    exact congrArg _ (strikes.takeStrike.trans (State.deliverStrike_mute silent))
  · exact congrArg _ (State.takeStrike_again (.inr ⟨strikeTarget_eq_none none_drawn, glow⟩) struck)
  · have strikes : Strikes s p e _ := ⟨clear, .inr ⟨none_drawn, glow, rfl⟩⟩
    exact congrArg _ (strikes.takeStrike.trans (State.deliverStrike_mute silent))

/-! ### The candidate list (R75 to R78) -/

/-- R75, R77: the engine with a new record at the tail of `cs`. -/
def joined (e : PenEngine) (key : Key) (kind : CandidateKind) (strike : Point) (cs : List Candidate) : PenEngine :=
  let numbered := if e.firstSeen = 4095 then cs.mapIdx fun i c => { c with firstSeen := i } else cs
  let next := if e.firstSeen = 4095 then cs.length else e.firstSeen
  { e with
    candidates := numbered ++
      [{ key := key, kind := kind, history := 0#8, struck := true, firstSeen := next, strike := strike }]
    firstSeen := next + 1 }

section
variable {e : PenEngine} {key : Key} {kind : CandidateKind} {strike : Point}

theorem PenEngine.join_eq_joined (cs : List Candidate) :
    PenEngine.join { e with candidates := cs } key kind strike = joined e key kind strike cs := by
  have numbered : renumberFrom 0 cs = cs.mapIdx fun i c => { c with firstSeen := i } := by
    rw [renumberFrom_eq_mapIdx]
    simp only [Nat.zero_add]
  unfold PenEngine.join PenEngine.renumbered joined
  by_cases full : e.firstSeen = 4095
  · simp only [full, Config.maxFirstSeen, if_true, numbered]
    rfl
  · simp only [full, Config.maxFirstSeen, if_false]
    rfl

theorem PenEngine.recordKey_known (h : ∃ c ∈ e.candidates, c.key = key) :
    e.recordKey key kind strike = { e with
      candidates := e.candidates.map fun c =>
        if c.key = key then { c with struck := true, kind := kind, strike := strike } else c } := by
  have known : e.candidates.any (fun c => decide (c.key = key)) = true := by simpa using h
  exact if_pos known

theorem PenEngine.not_known (h : ∀ c ∈ e.candidates, c.key ≠ key) :
    ¬ e.candidates.any (fun c => decide (c.key = key)) = true := by simpa using h

theorem PenEngine.recordKey_joins (h : ∀ c ∈ e.candidates, c.key ≠ key) (room : e.candidates.length < 12) :
    e.recordKey key kind strike = joined e key kind strike e.candidates :=
  ((if_neg (PenEngine.not_known h)).trans (if_pos room)).trans (PenEngine.join_eq_joined e.candidates)

theorem PenEngine.recordKey_displaces (h : ∀ c ∈ e.candidates, c.key ≠ key) (full : e.candidates.length = 12) :
    e.recordKey key kind strike = e.displace key kind strike :=
  (if_neg (PenEngine.not_known h)).trans (if_neg (by rw [full]; exact Nat.lt_irrefl 12))

theorem Candidate.weaker_eq_false_iff (d v : Candidate) : d.weaker v = false ↔
    onesIn v.history 8 < onesIn d.history 8 ∨
      (onesIn v.history 8 = onesIn d.history 8 ∧ v.firstSeen ≤ d.firstSeen) := by
  rw [← Bool.not_eq_true]
  simp only [Candidate.weaker, Bool.or_eq_true, Bool.and_eq_true, decide_eq_true_eq]
  omega

/-- R78: no record is a victim before the one chosen. -/
theorem bestOf_weaker_best {cs : List Candidate} {v : Candidate} (h : bestOf Candidate.weaker cs = some v) :
    ∀ c ∈ cs, c.weaker v = false := by
  refine bestOf_best (fun x y hxy => ?_) (fun x y z hxy hyz => ?_) h
  · rw [Candidate.weaker_eq_false_iff]
    simp only [Candidate.weaker, Bool.or_eq_true, Bool.and_eq_true, decide_eq_true_eq] at hxy
    omega
  · rw [Candidate.weaker_eq_false_iff] at hxy hyz ⊢
    omega

theorem PenEngine.displace_of_victim {v : Candidate} (h : bestOf Candidate.weaker e.candidates = some v) :
    (onesIn v.history 8 ≤ 1 → e.displace key kind strike =
      joined e key kind strike (e.candidates.filter fun c => decide (c.key ≠ v.key))) ∧
    (2 ≤ onesIn v.history 8 → e.displace key kind strike = { e with crowded := true }) := by
  unfold PenEngine.displace
  rw [h]
  exact ⟨fun weak => (if_pos weak).trans (PenEngine.join_eq_joined _), fun strong => if_neg (by omega)⟩

/-- R76 to R78: what a hit makes of a full list. -/
theorem PenEngine.recordKey_full (h : ∀ c ∈ e.candidates, c.key ≠ key) (full : e.candidates.length = 12) :
    ∃ v ∈ e.candidates, (∀ c ∈ e.candidates, onesIn v.history 8 < onesIn c.history 8 ∨
        (onesIn v.history 8 = onesIn c.history 8 ∧ v.firstSeen ≤ c.firstSeen)) ∧
      (onesIn v.history 8 ≤ 1 → e.recordKey key kind strike =
        joined e key kind strike (e.candidates.filter fun c => decide (c.key ≠ v.key))) ∧
      (2 ≤ onesIn v.history 8 → e.recordKey key kind strike = { e with crowded := true }) := by
  have nonempty : e.candidates ≠ [] := by
    intro empty
    rw [empty] at full
    exact absurd full nofun
  obtain ⟨v, hv⟩ := Option.ne_none_iff_exists'.1 fun h => nonempty ((bestOf_eq_none_iff Candidate.weaker _).1 h)
  rw [PenEngine.recordKey_displaces h full]
  exact ⟨v, bestOf_mem hv, fun c hc => (Candidate.weaker_eq_false_iff ..).1 (bestOf_weaker_best hv c hc),
    PenEngine.displace_of_victim hv⟩

end

/-! ### Hits (R56 to R58) -/

section
variable {s : State} {p : Pen} {key : Key} {strike : Point}

theorem State.recordHit_recorded {kind : CandidateKind} (used : (s.image key.segment).kind ≠ .unused)
    (hk : kind = .menu ↔ ∃ n k, (s.image key.segment).kind = .menu n k) :
    s.recordHit p key strike = s.setPen p ((s.pen p).recordKey key kind strike) := by
  have recorded : (s.image key.segment).candidateKind = some kind := by
    unfold Image.candidateKind
    cases hi : (s.image key.segment).kind with
    | unused => exact absurd hi used
    | drawing d b =>
      cases kind with
      | drawing => rfl
      | menu =>
        obtain ⟨n, k, hm⟩ := hk.1 rfl
        exact absurd (hi.symm.trans hm) nofun
    | menu n k => exact congrArg some (hk.2 ⟨n, k, hi⟩).symm
  unfold State.recordHit
  rw [recorded]

theorem State.recordHit_unused (unused : (s.image key.segment).kind = .unused) : s.recordHit p key strike = s := by
  unfold State.recordHit Image.candidateKind
  rw [unused]

theorem State.hit_gathering (h : (s.pen p).attempt = .gathering) : s.hit p key strike = s.recordHit p key strike := by
  unfold State.hit
  rw [h]

theorem State.hit_ready (h : (s.pen p).attempt = .ready) : s.hit p key strike = s.readyHit p key strike := by
  unfold State.hit
  rw [h]

theorem State.hit_settled {k : Option Key} {b : Bool} (h : (s.pen p).attempt = .settled k b) :
    s.hit p key strike = s.settledHit p k key := by
  unfold State.hit
  rw [h]

/-- R56: the states in which a hit does nothing. -/
theorem State.hit_idle (h : (s.pen p).attempt = .off ∨ (s.pen p).attempt = .regionWait ∨
    (s.pen p).attempt = .regionCount ∨ ∃ o, (s.pen p).attempt = .holding o) : s.hit p key strike = s := by
  unfold State.hit
  rcases h with h | h | h | ⟨o, h⟩ <;> rw [h]

end

/-- R17: the struck flag is all that the beam's mark writes. -/
theorem marks_of_strikes {s hit : State} {p : Pen} {e : Entry} (h : Strikes s p e hit) :
    hit = { s with beam := hit.beam } := by
  obtain ⟨-, ⟨before, after, -, -, -, rfl⟩ | ⟨-, -, rfl⟩⟩ := h <;> rfl

theorem State.deliverStrike_pickable {s : State} {p : Pen} {e : Entry} (h : e.Pickable) (mask : e.mask.get p = true) :
    s.deliverStrike p e = s.hit p e.key e.endPt := by
  obtain ⟨origin, kind⟩ := h
  unfold State.deliverStrike
  rw [origin]
  exact if_pos ⟨by rcases kind with h | h | h | h <;> rw [h] <;> exact nofun, mask⟩

/-- Settles O26: the hit is recorded, starts an attempt, marks the settled key, or does nothing. -/
theorem hitJoinsTheCandidateList : Obligations.HitJoinsTheCandidateList := by
  refine ⟨?_, fun e key kind strike =>
    ⟨PenEngine.recordKey_known, PenEngine.recordKey_joins, PenEngine.recordKey_full⟩⟩
  intro s p e hit kind strikes pickable mask hk become
  have marks := marks_of_strikes strikes
  have pen : hit.pen p = s.pen p := by rw [marks]; rfl
  have image : hit.image = s.image := by rw [marks]; rfl
  have pens : hit.pens = s.pens := by rw [marks]
  have exec_eq : exec (.strike p) s = .next (hit.hit p e.key e.endPt) :=
    congrArg _ (strikes.takeStrike.trans (State.deliverStrike_pickable pickable mask))
  have becomes {v : PenEngine} (h : hit.hit p e.key e.endPt = hit.setPen p v) : exec (.strike p) s = become v := by
    rw [exec_eq, h]
    unfold State.setPen
    rw [pens]
  have rests (h : hit.hit p e.key e.endPt = hit) : exec (.strike p) s = .next hit := exec_eq.trans (congrArg _ h)
  rw [← image] at hk
  rw [← pen, ← image]
  refine ⟨fun ha used => becomes ((State.hit_gathering ha).trans (State.recordHit_recorded used hk)),
    fun ha mode used => becomes ?_, fun b ha mode => becomes ?_, fun idle => rests ?_⟩
  · rw [State.hit_ready ha]
    unfold State.readyHit
    rw [if_pos ⟨mode, used⟩, State.recordHit_recorded (s := hit.setPen p _) used hk, State.pen_setPen, State.setPen_setPen]
    rfl
  · rw [State.hit_settled ha]
    exact if_pos ⟨mode, rfl⟩
  · rcases idle with ⟨ha, none_starts⟩ | ⟨k, b, ha, other⟩ | ha | ha | ha | ha | ⟨ha, unused⟩
    · rw [State.hit_ready ha]
      exact if_neg fun starts => none_starts.elim (fun h => h starts.1) fun h => starts.2 h
    · rw [State.hit_settled ha]
      exact if_neg fun both => other.elim (fun h => h both.2) fun h => h both.1
    · exact State.hit_idle (.inl ha)
    · exact State.hit_idle (.inr (.inl ha))
    · exact State.hit_idle (.inr (.inr (.inl ha)))
    · exact State.hit_idle (.inr (.inr (.inr ha)))
    · rw [State.hit_gathering ha]
      exact State.recordHit_unused unused

/-! ### Cross hits (R97) -/

/-- The set of one arm of a tally. -/
def Tally.arm (y : Tally) : Arm → BitVec 4
  | .e => y.e
  | .w => y.w
  | .n => y.n
  | .s => y.s

theorem getLsbD_or_dot (x : BitVec 4) {k : Nat} (h1 : 1 ≤ k) {j : Nat} (hj : j < 4) :
    (x ||| 1#4 <<< (k - 1)).getLsbD j = true ↔ x.getLsbD j = true ∨ j + 1 = k := by
  have dot : (1#4 <<< (k - 1)).getLsbD j = true ↔ j + 1 = k := by
    rw [BitVec.getLsbD_shiftLeft, BitVec.getLsbD_one]
    simp only [Bool.and_eq_true, Bool.not_eq_true', decide_eq_true_eq, decide_eq_false_iff_not]
    omega
  rw [BitVec.getLsbD_or, Bool.or_eq_true, dot]

theorem Tally.add_arm (y : Tally) (arm a : Arm) {k : Nat} (h1 : 1 ≤ k) {j : Nat} (hj : j < 4) :
    ((y.add arm k).arm a).getLsbD j = true ↔ (y.arm a).getLsbD j = true ∨ (a = arm ∧ j + 1 = k) := by
  by_cases same : a = arm
  · subst same
    simp only [true_and]
    cases a <;> exact getLsbD_or_dot _ h1 hj
  · have kept : (y.add arm k).arm a = y.arm a := by
      cases arm <;> cases a <;> simp_all [Tally.add, Tally.arm]
    rw [kept]
    simp [same]

theorem State.crossHit_counted {s : State} {p : Pen} (h : (s.tracker p).state ≠ .off) (fresh : (s.tracker p).stale = false)
    (arm : Arm) (k : Nat) :
    s.crossHit p arm k = s.setTracker p { s.tracker p with tally := (s.tracker p).tally.add arm k } :=
  if_pos (by simp [Tracker.active, h, fresh])

theorem State.crossHit_discarded {s : State} {p : Pen} (h : (s.tracker p).state = .off ∨ (s.tracker p).stale = true)
    (arm : Arm) (k : Nat) : s.crossHit p arm k = s :=
  if_neg (by rcases h with h | h <;> simp [Tracker.active, h])

/-- Settles O27: the index joins the set of its arm, unless the hit is discarded. -/
theorem crossHitJoinsTheTally : Obligations.CrossHitJoinsTheTally := by
  intro s p arm k e hit strikes hk origin h1 h4
  have marks := marks_of_strikes strikes
  have tracker : hit.tracker p = s.tracker p := by rw [marks]; rfl
  have trackers : hit.trackers = s.trackers := by rw [marks]
  have delivered : hit.deliverStrike p e = hit.crossHit p arm k := by
    unfold State.deliverStrike
    rw [origin]
    exact if_pos rfl
  have exec_eq : exec (.strike p) s = .next (hit.crossHit p arm k) :=
    congrArg Host.Outcome.next (strikes.takeStrike.trans delivered)
  refine ⟨_, exec_eq, ?_⟩
  by_cases live : (s.tracker p).state ≠ .off ∧ (s.tracker p).stale = false
  · have counted := State.crossHit_counted (s := hit) (p := p) (by rw [tracker]; exact live.1)
      (by rw [tracker]; exact live.2) arm k
    rw [tracker] at counted
    rw [counted, State.tracker_setTracker]
    refine ⟨?_, fun dead => ?_, fun _ _ => ?_⟩
    · unfold State.setTracker
      rw [trackers]
    · exact (dead.elim live.1 fun h => absurd (live.2.symm.trans h) nofun).elim
    · intro set a j hj
      have set_eq : ∀ y a, set y a = y.arm a := fun y a => by cases a <;> rfl
      rw [set_eq, set_eq]
      exact Tally.add_arm _ arm a h1 hj
  · have dead : (s.tracker p).state = .off ∨ (s.tracker p).stale = true := by
      rw [not_and_or, not_not, Bool.not_eq_false] at live
      exact live
    rw [State.crossHit_discarded (by rw [tracker]; exact dead), tracker]
    refine ⟨?_, fun _ => rfl, fun on fresh => (live ⟨on, fresh⟩).elim⟩
    rw [show s.trackers.set p { s.tracker p with tally := (s.tracker p).tally } = s.trackers from Pair.set_get ..,
      ← trackers]

/-! ### What a strike leaves (R16) -/

/-- Settles O28: a strike is a hit or a cross hit of its own pen, or marks the beam alone. -/
theorem strikeLeavesTheOtherPenAlone : Obligations.StrikeLeavesTheOtherPenAlone := by
  intro s t p hexec
  obtain rfl : s.takeStrike p = t := Host.Outcome.next.inj hexec
  obtain same | ⟨b, e, -, -, struck⟩ := s.takeStrike_cases p
  · rw [same]
    exact ⟨rfl, rfl, rfl, rfl, rfl, rfl, rfl, rfl, rfl⟩
  rw [struck]
  obtain nothing | hit | ⟨arm, k, cross⟩ := State.deliverStrike_cases { s with beam := b } p e
  · rw [nothing]
    exact ⟨rfl, rfl, rfl, rfl, rfl, rfl, rfl, rfl, rfl⟩
  · have other := (samePen_keeps (otherPen p) { s with beam := b }).hit { s with beam := b } p (otherPen_ne p).symm e.key
      e.endPt nofun (.refl ..)
    rw [hit]
    exact ⟨other.pen, other.tracker, by simp, by simp, by simp, by simp, by simp, by simp, by simp⟩
  · have other := (samePen_keeps (otherPen p) { s with beam := b }).crossHit { s with beam := b } p (otherPen_ne p).symm
      arm k (.refl ..)
    rw [cross]
    exact ⟨other.pen, other.tracker, by simp, by simp, by simp, by simp, by simp, by simp, by simp⟩

end Sys2Proof.Machine
end

section
/-! Tip events (O29, O30). -/

namespace Sys2Proof.Machine

open Sys2Proof.Stated

/-! ### Tip down (R54, R55, R57, R59) -/

section
variable {s : State} {p : Pen}

theorem exec_tipDown (h : (s.pen p).tip = .up) : exec (.tipDown p) s = .next (s.penTipDown p) := by
  show execTipDown p s = _
  unfold execTipDown
  rw [h]

theorem State.penTipDown_ready (h : (s.pen p).attempt = .ready) :
    s.penTipDown p = (s.setPen p { s.pen p with tip := .down }).startAttempt p := by
  unfold State.penTipDown
  rw [h]

theorem State.penTipDown_other (h : (s.pen p).attempt ≠ .ready) :
    s.penTipDown p = s.setPen p { s.pen p with tip := .down } := by
  unfold State.penTipDown
  cases ha : (s.pen p).attempt with
  | ready => exact absurd ha h
  | _ => rfl

/-- The record of a pen whose tip goes down is that of before. -/
theorem State.mode_tipDown {m : Mode} (h : (s.pen p).record.mode = m) :
    ((s.setPen p { s.pen p with tip := .down }).pen p).record.mode = m := by
  rw [State.pen_setPen]
  exact h

end

/-- Settles O29: the tip record is written, and in READY the attempt is started that the mode asks for. -/
theorem tipDownStartsOrMisses : Obligations.TipDownStartsOrMisses := by
  refine ⟨fun s p up => ?_, fun s p up ready mode unlocked => ?_⟩
  · intro started
    refine ⟨fun ready mode => ?press, fun ready mode locked => ?locked, fun rests => ?rests⟩
    case press =>
      rw [exec_tipDown up, State.penTipDown_ready ready, State.startAttempt_press (State.mode_tipDown mode),
        State.setPen_setPen, State.pen_setPen]
      rfl
    case locked =>
      rw [exec_tipDown up, State.penTipDown_ready ready, State.startAttempt_locked (State.mode_tipDown mode) locked,
        State.setPen_setPen, State.pen_setPen]
      rfl
    case rests =>
      rw [exec_tipDown up]
      by_cases ready : (s.pen p).attempt = .ready
      · rw [State.penTipDown_ready ready,
          State.startAttempt_continuous (State.mode_tipDown (rests.resolve_left fun h => h ready))]
        rfl
      · exact congrArg _ (State.penTipDown_other ready)
  · have missed := State.startAttempt_unlocked (s := s.setPen p { s.pen p with tip := .down }) (State.mode_tipDown mode)
      unlocked
    rw [State.setPen_setPen, State.pen_setPen, endMiss_eq_afterMiss, State.pen_setPen,
      afterMiss_setPen (e := PenEngine.started { s.pen p with tip := .down } .regionWait) (by rw [ready]; rfl) rfl] at missed
    refine ⟨_, exec_tipDown up, ?_⟩
    rw [State.penTipDown_ready ready, missed]
    refine ⟨Pair.get_set_same .., fun room => ?_, fun room => ?_⟩
    · exact if_pos ((room_iff s).1 room)
    · exact if_neg fun h => room ((room_iff s).2 h)

/-! ### Tip up (R57 to R59) -/

section
variable {s : State} {p : Pen}

theorem exec_tipUp (h : (s.pen p).tip = .down) : exec (.tipUp p) s = .next ((afterTipUp s p).trackerTipUp p) := by
  show execTipUp p s = _
  unfold execTipUp
  rw [h, penTipUp_eq_afterTipUp]

/-- R57: what a tip up leaves, and what it makes of the pen. -/
structure TipUp (s : State) (p : Pen) (t : State) : Prop where
  trackers : t.trackers = s.trackers
  injection : t.injection = s.injection
  record : (t.pen p).record = (s.pen p).record
  tip : (t.pen p).tip = .up
  attempt : (t.pen p).attempt ≠ .regionWait ∧ (t.pen p).attempt ≠ .regionCount

theorem tipUp_setPen {e : PenEngine} (record : e.record = (s.pen p).record) (tip : e.tip = .up)
    (attempt : e.attempt ≠ .regionWait ∧ e.attempt ≠ .regionCount) : TipUp s p (s.setPen p e) := by
  refine ⟨rfl, rfl, ?_, ?_, ?_⟩ <;> rw [State.pen_setPen] <;> assumption

theorem tipUp_afterMiss {e : PenEngine} (record : e.record = (s.pen p).record) (tip : e.tip = .up)
    (reason : MissReason) : TipUp s p (afterMiss s p e reason .ready) := by
  have pen : (afterMiss s p e reason .ready).pen p = { e with
      attempt := .ready, candidates := [], exclusions := [], lastOutcome := .miss reason } := Pair.get_set_same ..
  exact ⟨rfl, rfl, by rw [pen]; exact record, by rw [pen]; exact tip, by rw [pen]; exact ⟨nofun, nofun⟩⟩

theorem tipUp_afterTipUp (s : State) (p : Pen) : TipUp s p (afterTipUp s p) := by
  have kept (attempt : (s.pen p).attempt ≠ .regionWait ∧ (s.pen p).attempt ≠ .regionCount) :
      TipUp s p (s.setPen p { s.pen p with tip := .up }) := tipUp_setPen rfl rfl attempt
  have released := tipUp_afterMiss (s := s) (p := p) (e := { s.pen p with tip := .up }) rfl rfl .released
  unfold afterTipUp
  dsimp only
  split
  · next ha =>
    split
    · exact released
    · exact kept (by rw [ha]; exact ⟨nofun, nofun⟩)
  · exact released
  · exact released
  · next k b ha =>
    split
    · exact tipUp_setPen (e := { s.pen p with tip := .up, attempt := .ready }) rfl rfl ⟨nofun, nofun⟩
    · exact kept (by rw [ha]; exact ⟨nofun, nofun⟩)
  · next ha => exact kept (by rw [ha]; exact ⟨nofun, nofun⟩)
  · next ha => exact kept (by rw [ha]; exact ⟨nofun, nofun⟩)
  · next o ha => exact kept (by rw [ha]; exact ⟨nofun, nofun⟩)

/-- R105: where no drag ends, the tracker does nothing at a tip up. -/
theorem exec_tipUp_no_drag (down : (s.pen p).tip = .down)
    (h : (s.tracker p).state = .off ∨ (s.tracker p).origin = .host ∨ (s.pen p).record.dragEnds = false) :
    exec (.tipUp p) s = .next (afterTipUp s p) := by
  have leaves := tipUp_afterTipUp s p
  have tracker : (afterTipUp s p).tracker p = s.tracker p := congrArg (·.get p) leaves.trackers
  refine (exec_tipUp down).trans (congrArg _ (if_neg ?_))
  rw [tracker, leaves.record]
  rintro ⟨active, drag, ends⟩
  rcases h with off | host | stays
  · simp [Tracker.active, off] at active
  · exact absurd (host.symm.trans drag) nofun
  · exact absurd (stays.symm.trans ends) nofun

/-- R105: the state in which a drag that ends makes its FINAL request. -/
def dragEnded (s : State) (p : Pen) : State :=
  { afterTipUp s p with
    trackers := s.trackers.set p (turnedOff (s.tracker p))
    injection := s.injection.filter fun d => decide (d.pen ≠ p) }

/-- R105: the FINAL request of a drag. -/
def finalRequest (s : State) (p : Pen) : PositionClaim :=
  { point := (s.tracker p).position, origin := .drag, final := true }

theorem exec_tipUp_drag (down : (s.pen p).tip = .down) (on : (s.tracker p).state ≠ .off)
    (drag : (s.tracker p).origin = .drag) (ends : (s.pen p).record.dragEnds = true) :
    exec (.tipUp p) s = .next ((dragEnded s p).positionRequest p (finalRequest s p)) := by
  have leaves := tipUp_afterTipUp s p
  have tracker : (afterTipUp s p).tracker p = s.tracker p := congrArg (·.get p) leaves.trackers
  have takes : ((afterTipUp s p).tracker p).active = true ∧ ((afterTipUp s p).tracker p).origin = .drag ∧
      ((afterTipUp s p).pen p).record.dragEnds = true := by
    rw [tracker, leaves.record]
    exact ⟨decide_eq_true on, drag, ends⟩
  refine (exec_tipUp down).trans (congrArg _ ((if_pos takes).trans ?_))
  have turned : ((afterTipUp s p).setTracker p (s.tracker p).turnedOff).dropDots p = dragEnded s p := by
    unfold State.setTracker State.dropDots dragEnded
    rw [leaves.trackers, leaves.injection]
    rfl
  unfold State.dragEnd
  dsimp only
  rw [tracker, turned, drag]
  refine State.notifyIfLocked_free (.inr ?_)
  unfold State.pen
  rw [State.positionRequest_pens]
  exact leaves.attempt

end

/-- Settles O30: the pen engine takes the tip up first, and then a drag that ends makes its request. -/
theorem tipUpEndsAttemptOrDrag : Obligations.TipUpEndsAttemptOrDrag := by
  refine ⟨fun s p down stays => ⟨fun k b ha mode => ?settled, fun idle => ?idle, fun ends => ?ends⟩,
    fun s p down on drag ends mode settled room quiet => ?queued,
    fun s p down on drag ends => ?drag, fun s p down stays => exec_tipUp_no_drag down stays⟩
  case settled =>
    rw [exec_tipUp_no_drag down stays]
    unfold afterTipUp
    simp only [ha]
    exact congrArg _ (if_pos mode)
  case idle =>
    rw [exec_tipUp_no_drag down stays]
    unfold afterTipUp
    rcases idle with ha | ha | ⟨o, ha⟩ | ⟨ha | ⟨k, b, ha⟩, mode⟩
    · simp only [ha]
    · simp only [ha]
    · simp only [ha]
    · simp only [ha, mode]
      rfl
    · simp only [ha, mode]
      rfl
  case ends =>
    rw [exec_tipUp_no_drag down stays]
    unfold afterTipUp
    rcases ends with ⟨ha, mode⟩ | ha | ha
    · simp only [ha, mode]
      rfl
    · simp only [ha]
      rfl
    · simp only [ha]
      rfl
  case drag =>
    have pens := State.positionRequest_pens (dragEnded s p) p (finalRequest s p)
    have tracker := State.tracker_positionRequest_final (dragEnded s p) p (req := finalRequest s p) rfl
    have ended : (dragEnded s p).tracker p = turnedOff (s.tracker p) := Pair.get_set_same ..
    rw [ended] at tracker
    refine ⟨_, exec_tipUp_drag down on drag ends, ?_, tracker, State.positionRequest_injection .., rfl⟩
    unfold State.pen
    rw [pens]
    exact (tipUp_afterTipUp s p).tip
  case queued =>
    obtain ⟨k, b, ha⟩ := settled
    have ready : afterTipUp s p = s.setPen p { s.pen p with tip := .up, attempt := .ready } := by
      unfold afterTipUp
      simp only [ha]
      exact if_pos (.inl mode)
    have ended : dragEnded s p = { s.setPen p { s.pen p with tip := .up, attempt := .ready } with
        trackers := s.trackers.set p (turnedOff (s.tracker p))
        injection := s.injection.filter fun d => decide (d.pen ≠ p) } := by
      unfold dragEnded
      rw [ready]
    have tracker : (dragEnded s p).tracker p = turnedOff (s.tracker p) := Pair.get_set_same ..
    have notices : (dragEnded s p).notices = s.notices := by rw [ended]; rfl
    have pen : (dragEnded s p).pen p = { s.pen p with tip := .up, attempt := .ready } := by
      rw [ended]
      exact Pair.get_set_same ..
    have unclaimed : ((dragEnded s p).tracker p).positionClaim = none := by
      obtain ⟨-, -, -, claims, -⟩ := room
      rw [tracker]
      exact (claims p).2
    have hasRoom : (dragEnded s p).hasRoom = s.hasRoom := by
      rw [ended]
      exact (State.hasRoom_setTracker (s.setPen p { s.pen p with tip := .up, attempt := .ready }) p
        (t := turnedOff (s.tracker p)) rfl rfl).trans (State.hasRoom_setPen s p (by rw [ha]; rfl))
    have roomy : Room (dragEnded s p) := by
      rw [room_iff, hasRoom, ← room_iff]
      exact room
    have stale : ∀ n ∈ (dragEnded s p).notices.queue, ¬ Fresh p n := by
      rw [notices]
      rintro n hn ⟨own, -, c, hc, -⟩
      exact quiet n hn c hc own
    rw [exec_tipUp_drag down on drag ends, State.positionRequest_placed (.inr rfl),
      State.placePosition_enters stale unclaimed roomy (by rw [notices]; exact quiet), pen, notices]
    rw [show ∀ u : NoticeUnit, State.tracker { dragEnded s p with notices := u } p = turnedOff (s.tracker p)
      from fun _ => tracker, ended]
    dsimp only [State.setTracker]
    rw [Pair.set_set]
    rfl

end Sys2Proof.Machine
end

section
/-! The expiry of the frame timer (O53). -/

namespace Sys2Proof.Machine

open Sys2Proof.Stated

/-! ### The order of an expiry (log 5) -/

/-- R171: the blocks that a pen's names stand for, in turn. -/
def blocksOf (p : Pen) : List CloseBlock := [.penEngine p, .tracker p]

def isOf (p : Pen) (b : CloseBlock) : Bool := decide (ownerOf b = p)

/-- R171: the blocks of one pen in the order of an expiry; `a` and `b` of them are named already. -/
theorem filter_expiryBlocks (p : Pen) (l : List Pen) (a b : Nat) :
    (expiryBlocks l a b).filter (isOf p) = ((blocksOf p).drop ((Pair.mk a b).get p)).take (l.count p) := by
  induction l generalizing a b with
  | nil => simp [expiryBlocks]
  | cons x l ih =>
    cases x with
    | a =>
      match a with
      | 0 => cases p <;> simp [expiryBlocks, isOf, ownerOf, ih, blocksOf, Pair.get]
      | 1 => cases p <;> simp [expiryBlocks, isOf, ownerOf, ih, blocksOf, Pair.get]
      | n + 2 => cases p <;> simp [expiryBlocks, ih, blocksOf, Pair.get]
    | b =>
      match b with
      | 0 => cases p <;> simp [expiryBlocks, isOf, ownerOf, ih, blocksOf, Pair.get]
      | 1 => cases p <;> simp [expiryBlocks, isOf, ownerOf, ih, blocksOf, Pair.get]
      | n + 2 => cases p <;> simp [expiryBlocks, ih, blocksOf, Pair.get]

theorem filter_expiryOrder (p : Pen) (order : List Pen) : (expiryOrder order).filter (isOf p) = blocksOf p := by
  have named : 2 ≤ (order ++ [Pen.a, .a, .b, .b]).count p := by
    rw [List.count_append]
    have twice : [Pen.a, .a, .b, .b].count p = 2 := by cases p <;> rfl
    omega
  unfold expiryOrder
  rw [filter_expiryBlocks, List.take_of_length_le]
  · cases p <;> rfl
  · rw [List.length_drop]
    exact (Nat.sub_le ..).trans named

/-- Once both blocks of each pen are named, further names stand for nothing. -/
theorem expiryBlocks_spent (l : List Pen) : expiryBlocks l 2 2 = [] := by
  induction l with
  | nil => rfl
  | cons x l ih => cases x <;> exact ih

/-- Names that name each block once stand for the blocks of their pens. -/
theorem map_expiryBlocks (l m : List Pen) (a b : Nat) (ha : a + l.count .a = 2) (hb : b + l.count .b = 2) :
    (expiryBlocks (l ++ m) a b).map ownerOf = l := by
  induction l generalizing a b with
  | nil =>
    obtain rfl : a = 2 := ha
    obtain rfl : b = 2 := hb
    rw [List.nil_append, expiryBlocks_spent]
    rfl
  | cons x l ih =>
    cases x with
    | a =>
      rw [List.count_cons_self] at ha
      rw [List.count_cons_of_ne (by decide)] at hb
      match a with
      | 0 => exact congrArg (Pen.a :: ·) (ih 1 b (by omega) hb)
      | 1 => exact congrArg (Pen.a :: ·) (ih 2 b (by omega) hb)
      | n + 2 => omega
    | b =>
      rw [List.count_cons_of_ne (by decide)] at ha
      rw [List.count_cons_self] at hb
      match b with
      | 0 => exact congrArg (Pen.b :: ·) (ih a 1 ha (by omega))
      | 1 => exact congrArg (Pen.b :: ·) (ih a 2 ha (by omega))
      | n + 2 => omega

theorem map_expiryOrder {order : List Pen} (h : order.Perm [.a, .a, .b, .b]) :
    (expiryOrder order).map ownerOf = order :=
  map_expiryBlocks order _ 0 0 ((Nat.zero_add _).trans (h.count_eq .a)) ((Nat.zero_add _).trans (h.count_eq .b))

theorem sublist_expiryOrder (p : Pen) (order : List Pen) : (blocksOf p).Sublist (expiryOrder order) := by
  rw [← filter_expiryOrder p order]
  exact List.filter_sublist

theorem expiryOrder_perm (order : List Pen) :
    (expiryOrder order).Perm [.penEngine .a, .penEngine .b, .tracker .a, .tracker .b] := by
  have others : (fun b => !isOf .a b) = isOf .b := by
    funext b
    cases b with | _ p => cases p <;> rfl
  have both := (List.filter_append_perm (isOf .a) (expiryOrder order)).symm
  rw [others, filter_expiryOrder, filter_expiryOrder] at both
  refine both.trans ?_
  decide

/-- R171: pen p's engine takes the expiry before its tracker, and no other block is of pen p. -/
theorem expiryOrder_split (p : Pen) (order : List Pen) :
    ∃ before between after, expiryOrder order = before ++ .penEngine p :: (between ++ .tracker p :: after) ∧
      (∀ b ∈ before, ownerOf b ≠ p) ∧ (∀ b ∈ between, ownerOf b ≠ p) ∧ ∀ b ∈ after, ownerOf b ≠ p := by
  have other {b : CloseBlock} (h : ¬ isOf p b = true) : ownerOf b ≠ p := fun e => h (decide_eq_true e)
  obtain ⟨before, rest, split, hbefore, -, hrest⟩ := List.filter_eq_cons_iff.1 (filter_expiryOrder p order)
  obtain ⟨between, after, split', hbetween, -, hafter⟩ := List.filter_eq_cons_iff.1 hrest
  exact ⟨before, between, after, by rw [split, split'], fun b hb => other (hbefore b hb),
    fun b hb => other (hbetween b hb), fun b hb => other (List.filter_eq_nil_iff.1 hafter b hb)⟩

/-! ### The STALL (R171, R173, R181) -/

theorem State.stallContext_eq {s : State} (hf : s.beam.flight.length ≤ 8) (hs : s.supervisor.setting ≤ 255) :
    s.stallContext = stallWord s := by
  have held : (if s.link.held.isSome then 2 ^ 4 else 0) = if s.link.held = none then 0 else 16 := by
    cases s.link.held <;> rfl
  unfold State.stallContext stallWord
  rw [held]
  congr 1
  cases s.decoder.state <;> simp only [DecoderState.code] <;> omega

/-- R171: the state in which the blocks take the expiry. -/
def State.stalled (s : State) : State :=
  ({ s with supervisor := { s.supervisor with timer := .stalled } }).raiseFault .stall (stallWord s)

theorem exec_expiry {s : State} {ms : Nat} (h : s.supervisor.timer = .running ms) (hf : s.beam.flight.length ≤ 8)
    (hs : s.supervisor.setting ≤ 255) (order : List Pen) :
    exec (.frameTimerExpiry order) s = .next ((expiryOrder order).foldl State.blockExpiry s.stalled) := by
  rw [exec_frameTimerExpiry_running h]
  unfold State.expire State.stalled
  rw [State.stallContext_eq hf hs]

theorem State.supervisor_raiseFault (s : State) (kind : FaultKind) (context : Word) :
    let v := (s.raiseFault kind context).supervisor
    v.timer = s.supervisor.timer ∧ v.setting = s.supervisor.setting ∧ v.sticky = stickyWith s.supervisor.sticky kind ∧
      v.first = firstWith s.supervisor.first kind context := by
  unfold State.raiseFault
  dsimp only
  split <;> exact ⟨rfl, rfl, rfl, rfl⟩

/-! ### The blocks take the expiry (R66, R109) -/

/-- R66: the attempt states that an expiry ends. -/
abbrev Misses (e : PenEngine) : Prop := e.attempt = .gathering ∨ e.attempt = .regionWait ∨ e.attempt = .regionCount

/-- R109: tracker p has become SEEKING, and its TRACK LOST request is made. -/
def State.sought (s : State) (p : Pen) : State :=
  afterTrackRequest { s with trackers := s.trackers.set p { s.tracker p with
      state := .seeking, missCount := 0, tally := ⟨0, 0, 0, 0⟩ } } p
    { event := .lost, point := (s.tracker p).position, origin := (s.tracker p).origin }

section
variable {s : State} {p : Pen}

theorem State.penExpiry_misses (h : Misses (s.pen p)) : s.penExpiry p = afterMiss s p (s.pen p) .stalled .ready := by
  unfold State.penExpiry
  rcases h with h | h | h <;> rw [h] <;> exact endMiss_eq_afterMiss ..

theorem State.penExpiry_rests (h : ¬ Misses (s.pen p)) : s.penExpiry p = s := by
  unfold State.penExpiry
  cases ha : (s.pen p).attempt with
  | gathering => exact absurd (.inl ha) h
  | regionWait => exact absurd (.inr (.inl ha)) h
  | regionCount => exact absurd (.inr (.inr ha)) h
  | _ => rfl

theorem State.trackerExpiry_active (h : (s.tracker p).state = .locked ∨ (s.tracker p).state = .coasting) :
    s.trackerExpiry p = (s.sought p).notifyIfLocked p (s.tracker p).state := by
  unfold State.trackerExpiry
  dsimp only
  rw [if_pos h, trackRequest_eq_afterTrackRequest]
  rfl

theorem State.trackerExpiry_rests (h : ¬ ((s.tracker p).state = .locked ∨ (s.tracker p).state = .coasting)) :
    s.trackerExpiry p = s := if_neg h

/-- R109: what a tracker does at an expiry. -/
theorem State.trackerExpiry_eq : s.trackerExpiry p =
    if (s.tracker p).state = .locked then afterUnlock (s.sought p) p
    else if (s.tracker p).state = .coasting then s.sought p else s := by
  by_cases locked : (s.tracker p).state = .locked
  · rw [State.trackerExpiry_active (.inl locked), if_pos locked, ← notifyUnlocked_eq_afterUnlock]
    exact if_pos locked
  · rw [if_neg locked]
    by_cases coasting : (s.tracker p).state = .coasting
    · rw [State.trackerExpiry_active (.inr coasting), if_pos coasting]
      exact if_neg locked
    · rw [if_neg coasting]
      exact State.trackerExpiry_rests fun h => h.elim locked coasting

end

/-- What one block leaves at an expiry. -/
structure ExpiryKeeps (s t : State) : Prop where
  records : t.regions.records = s.regions.records
  queue : ∀ n ∈ s.notices.queue, n ∈ t.notices.queue

theorem ExpiryKeeps.refl (s : State) : ExpiryKeeps s s := ⟨rfl, fun _ hn => hn⟩

theorem ExpiryKeeps.trans {s t u : State} (h : ExpiryKeeps s t) (h' : ExpiryKeeps t u) : ExpiryKeeps s u :=
  ⟨h'.records.trans h.records, fun n hn => h'.queue n (h.queue n hn)⟩

theorem expiryKeeps_afterMiss (s : State) (p : Pen) (e : PenEngine) (reason : MissReason) (next : AttemptState) :
    ExpiryKeeps s (afterMiss s p e reason next) := by
  refine ⟨rfl, fun n hn => ?_⟩
  show n ∈ (if s.hasRoom = true then _ else s.notices).queue
  split
  · exact List.mem_append_left _ hn
  · exact hn

theorem expiryKeeps_sought (s : State) (p : Pen) : ExpiryKeeps s (s.sought p) := by
  unfold State.sought afterTrackRequest
  split
  · exact ⟨rfl, fun n hn => List.mem_append_left _ hn⟩
  · exact ⟨rfl, fun n hn => hn⟩

theorem expiryKeeps_blockExpiry (s : State) (b : CloseBlock) : ExpiryKeeps s (s.blockExpiry b) := by
  cases b with
  | penEngine p =>
    show ExpiryKeeps s (s.penExpiry p)
    by_cases misses : Misses (s.pen p)
    · rw [State.penExpiry_misses misses]
      exact expiryKeeps_afterMiss ..
    · rw [State.penExpiry_rests misses]
      exact .refl s
  | tracker p =>
    show ExpiryKeeps s (s.trackerExpiry p)
    rw [State.trackerExpiry_eq]
    split
    · unfold afterUnlock
      split
      · exact (expiryKeeps_sought s p).trans (expiryKeeps_afterMiss ..)
      · exact expiryKeeps_sought s p
    · split
      · exact expiryKeeps_sought s p
      · exact .refl s

theorem expiryKeeps_foldl (bs : List CloseBlock) (s : State) : ExpiryKeeps s (bs.foldl State.blockExpiry s) := by
  induction bs generalizing s with
  | nil => exact .refl s
  | cons b bs ih => exact (expiryKeeps_blockExpiry s b).trans (ih _)

/-- R93: the expiry at one pen's blocks leaves the other pen as it was. -/
theorem samePen_foldl_blockExpiry {p : Pen} {bs : List CloseBlock} (h : ∀ b ∈ bs, ownerOf b ≠ p) (s : State) :
    SamePen p s (bs.foldl State.blockExpiry s) := by
  induction bs generalizing s with
  | nil => exact .refl p s
  | cons b bs ih =>
    have one : SamePen p s (s.blockExpiry b) := by
      have apart := h b List.mem_cons_self
      cases b with
      | penEngine q => exact (samePen_keeps p s).penExpiry s q apart (.refl p s)
      | tracker q => exact (samePen_keeps p s).trackerExpiry s q apart (.refl p s)
    exact one.trans (ih (fun c hc => h c (List.mem_cons_of_mem _ hc)) _)

/-! ### One pen at an expiry -/

/-- R66, R109: what an expiry makes of the engine and the tracker of a pen. -/
def Expired (s : State) (p : Pen) (t : State) : Prop :=
  (t.pen p = if (s.pen p).attempt = .gathering ∨ (s.pen p).attempt = .regionWait ∨
      (s.pen p).attempt = .regionCount then
    { s.pen p with attempt := .ready, candidates := [], exclusions := [], lastOutcome := .miss .stalled }
    else s.pen p) ∧
  ((s.tracker p).state = .locked ∨ (s.tracker p).state = .coasting →
    t.tracker p = { s.tracker p with
      state := .seeking, missCount := 0, tally := ⟨0, 0, 0, 0⟩, trackClaim := (t.tracker p).trackClaim } ∧
    ((t.tracker p).trackClaim = none ∧ (∃ n ∈ t.notices.queue, n.pen = some p ∧ n.body = .track
        { event := .lost, point := (s.tracker p).position, origin := (s.tracker p).origin }) ∨
      (t.tracker p).trackClaim = some { event := .lost, point := (s.tracker p).position
                                        origin := (s.tracker p).origin })) ∧
  ((s.tracker p).state = .off ∨ (s.tracker p).state = .seeking → t.tracker p = s.tracker p)

/-- R66: the engine after the expiry, which is in no attempt that the tracker's notification would end. -/
theorem pen_penExpiry (s : State) (p : Pen) :
    ((s.penExpiry p).pen p = if Misses (s.pen p) then
        { s.pen p with attempt := .ready, candidates := [], exclusions := [], lastOutcome := .miss .stalled }
      else s.pen p) ∧ ¬ Misses ((s.penExpiry p).pen p) ∧ (s.penExpiry p).tracker p = s.tracker p := by
  by_cases misses : Misses (s.pen p)
  · have ended : (s.penExpiry p).pen p =
        { s.pen p with attempt := .ready, candidates := [], exclusions := [], lastOutcome := .miss .stalled } := by
      rw [State.penExpiry_misses misses]
      exact Pair.get_set_same ..
    rw [ended, if_pos misses, show (s.penExpiry p).tracker p = s.tracker p from congrArg (·.get p) (s.penExpiry_trackers p)]
    exact ⟨rfl, fun h => h.elim nofun fun h => h.elim nofun nofun, rfl⟩
  · rw [State.penExpiry_rests misses, if_neg misses]
    exact ⟨rfl, misses, rfl⟩

/-- R106, R109: the tracker after its request, and where the request stands. -/
theorem sought_request (s : State) (p : Pen) :
    let t := s.sought p
    let lost : TrackClaim := { event := .lost, point := (s.tracker p).position, origin := (s.tracker p).origin }
    t.tracker p = { s.tracker p with
      state := .seeking, missCount := 0, tally := ⟨0, 0, 0, 0⟩, trackClaim := (t.tracker p).trackClaim } ∧
    ((t.tracker p).trackClaim = none ∧ (∃ n ∈ t.notices.queue, n.pen = some p ∧ n.body = .track lost) ∨
      (t.tracker p).trackClaim = some lost) := by
  intro t lost
  let u : State := { s with trackers := s.trackers.set p { s.tracker p with
    state := .seeking, missCount := 0, tally := ⟨0, 0, 0, 0⟩ } }
  have seeking : u.tracker p = { s.tracker p with state := .seeking, missCount := 0, tally := ⟨0, 0, 0, 0⟩ } :=
    Pair.get_set_same ..
  have made : t = afterTrackRequest u p lost := rfl
  refine ⟨by rw [made, tracker_afterTrackRequest, seeking], ?_⟩
  rw [made]
  unfold afterTrackRequest
  split
  · next enters =>
    exact .inl ⟨enters.1, _, List.mem_append_right _ List.mem_cons_self, rfl, rfl⟩
  · right
    rw [show State.tracker { u with trackers := u.trackers.set p { u.tracker p with trackClaim := some lost } } p =
      { u.tracker p with trackClaim := some lost } from Pair.get_set_same ..]

theorem expired_foldl (s : State) (p : Pen) (order : List Pen) :
    Expired s p ((expiryOrder order).foldl State.blockExpiry s) := by
  obtain ⟨before, between, after, split, hbefore, hbetween, hafter⟩ := expiryOrder_split p order
  rw [split, List.foldl_append, List.foldl_cons, List.foldl_append, List.foldl_cons]
  have same := samePen_foldl_blockExpiry hbefore s
  generalize before.foldl State.blockExpiry s = u at same
  obtain ⟨pen, ended, tracker⟩ := pen_penExpiry u p
  have same' := samePen_foldl_blockExpiry hbetween (u.blockExpiry (.penEngine p))
  generalize between.foldl State.blockExpiry (u.blockExpiry (.penEngine p)) = v at same'
  have pen' : v.pen p = _ := same'.pen.trans pen
  have tracker' : v.tracker p = s.tracker p := same'.tracker.trans (tracker.trans same.tracker)
  have last := samePen_foldl_blockExpiry hafter (v.blockExpiry (.tracker p))
  have kept := expiryKeeps_foldl after (v.blockExpiry (.tracker p))
  generalize after.foldl State.blockExpiry (v.blockExpiry (.tracker p)) = t at last kept
  have free : (v.pen p).attempt ≠ .regionWait ∧ (v.pen p).attempt ≠ .regionCount := by
    rw [same'.pen]
    exact ⟨fun h => ended (.inr (.inl h)), fun h => ended (.inr (.inr h))⟩
  have toldNothing : afterUnlock (v.sought p) p = v.sought p := by
    refine afterUnlock_of_not_region ?_
    rw [show (v.sought p).pen p = v.pen p from congrArg (·.get p) (pens_afterTrackRequest ..)]
    exact free
  have taken : v.blockExpiry (.tracker p) =
      if (v.tracker p).state = .locked ∨ (v.tracker p).state = .coasting then v.sought p else v := by
    show v.trackerExpiry p = _
    rw [State.trackerExpiry_eq, toldNothing]
    split_ifs <;> simp_all
  have keptPen : (v.blockExpiry (.tracker p)).pen p = v.pen p := by
    rw [taken]
    split
    · exact congrArg (·.get p) (pens_afterTrackRequest ..)
    · rfl
  refine ⟨?_, fun active => ?_, fun rests => ?_⟩
  · rw [last.pen, keptPen, pen', same.pen]
  · rw [← tracker'] at active
    rw [if_pos active] at taken
    obtain ⟨record, request⟩ := sought_request v p
    rw [taken] at last kept
    rw [tracker'] at record request
    rw [last.tracker]
    exact ⟨record, request.imp_left fun ⟨none_waits, n, hn, stands⟩ => ⟨none_waits, n, kept.queue n hn, stands⟩⟩
  · have quiet : ¬ ((v.tracker p).state = .locked ∨ (v.tracker p).state = .coasting) := by
      rw [tracker']
      rcases rests with h | h <;> rw [h] <;> exact fun h => h.elim nofun nofun
    rw [last.tracker, taken, if_neg quiet, tracker']

/-- Settles O53: the stall is raised, and each block takes the expiry in the order given. -/
theorem expiryOfARunningTimer : Obligations.ExpiryOfARunningTimer := by
  refine ⟨fun s order ms running flight setting => ?_, fun s order ms running flight setting => ?_, fun s p => ?_,
    fun s order rests => exec_frameTimerExpiry_resting rests order⟩
  · have expires := exec_expiry running flight setting order
    have keeps {γ : Type} (g : State → γ) (h : ∀ s b, g (State.blockExpiry s b) = g s) :
        g ((expiryOrder order).foldl State.blockExpiry s.stalled) = g s.stalled := foldl_keeps _ g h _ _
    have supervisor := keeps State.supervisor State.blockExpiry_supervisor
    obtain ⟨timer, kept, sticky, first⟩ := State.supervisor_raiseFault
      { s with supervisor := { s.supervisor with timer := .stalled } } .stall (stallWord s)
    have raised {γ : Type} {g : State → γ} (h : g s.stalled = g s) (k : ∀ s b, g (State.blockExpiry s b) = g s) :
        g ((expiryOrder order).foldl State.blockExpiry s.stalled) = g s := (keeps g k).trans h
    refine ⟨_, expires, ?_, ?_, ?_, ?_, raised (State.raiseFault_link ..) State.blockExpiry_link,
      raised (State.raiseFault_beam ..) State.blockExpiry_beam,
      raised (State.raiseFault_segments ..) State.blockExpiry_segments,
      raised (State.raiseFault_injection ..) State.blockExpiry_injection,
      raised (State.raiseFault_menu ..) State.blockExpiry_menu,
      raised (State.raiseFault_decoder ..) State.blockExpiry_decoder, ?_, fun p => ?_⟩
    · rw [supervisor]
      exact timer
    · rw [supervisor]
      exact kept
    · rw [supervisor]
      exact sticky
    · rw [supervisor]
      exact first.trans (firstWith_eq_ite ..)
    · rw [(expiryKeeps_foldl (expiryOrder order) s.stalled).records]
      exact congrArg RegionUnit.records (State.raiseFault_regions ..)
    · have pen : s.stalled.pen p = s.pen p := congrArg (·.get p) (State.raiseFault_pens ..)
      have tracker : s.stalled.tracker p = s.tracker p := congrArg (·.get p) (State.raiseFault_trackers ..)
      have expired := expired_foldl s.stalled p order
      unfold Expired at expired
      rw [pen, tracker] at expired
      exact expired
  · refine ⟨expiryOrder order, expiryOrder_perm order, fun p => sublist_expiryOrder p order, fun h => ?_,
      exec_expiry running flight setting order⟩
    have owner : (fun b : CloseBlock => match b with
        | .penEngine p => p
        | .tracker p => p) = ownerOf := by
      funext b
      cases b <;> rfl
    exact (map_expiryOrder h).symm.trans (congrArg (List.map · _) owner.symm)
  · refine ⟨?_, State.trackerExpiry_eq⟩
    show s.penExpiry p = _
    split
    · next misses => exact State.penExpiry_misses misses
    · next rests => exact State.penExpiry_rests rests

end Sys2Proof.Machine
end
